-- ==== Sys2Proof/Word.lean ====
section
/-! DEFINITION. The words of the machine: every register, every memory cell, every address and every operand
(spec/00_scope.md R6). `XLEN` is a parameter (R4, D1, log 1), so a word is the signed integer it is read as, an `Int`
(the name of the type is not abbreviated, for `omega` to see it), and the arithmetic of the machine is exact arithmetic
brought back into the range by `wrap`. -/

namespace Sys2Proof

/-- `wrap(v)` of R6: the integer in `[-2^(XLEN-1), 2^(XLEN-1) - 1]` congruent to `v` modulo `2^XLEN` (`wrap_eq_bmod`). The
match keeps Lean from unfolding a `wrap` at an unknown width; width 0, which R5 excludes, has the one word 0. -/
def wrap : Nat → Int → Int
  | 0, _ => 0
  | n + 1, v => Int.bmod v (2 ^ (n + 1))

/-- `v` is a word of `XLEN` bits: it lies in `[-2^(XLEN-1), 2^(XLEN-1) - 1]` (R6; both bounds are doubled here). -/
abbrev IsWord (xlen : Nat) (v : Int) : Prop := -2 ^ xlen ≤ 2 * v ∧ 2 * v < 2 ^ xlen

end Sys2Proof
end

