-- ==== Sys2Proof/Config.lean ====
section
/-! DEFINITION. What an implementation fixes: the parameters of spec/00_scope.md R4 as plain data (their default values
stand in Machine/Defaults.lean), and the one free value of the model. -/

namespace Sys2Proof

/-- `OPC` (R4, R53): the opcode number of each of the 31 instructions; `halt` is END's. -/
structure OpcMap where
  loadv : Int
  loada : Int
  loadind : Int
  loadidxx : Int
  loadidxy : Int
  loadspx : Int
  store : Int
  addx : Int
  addy : Int
  subx : Int
  suby : Int
  copytox : Int
  copyfromx : Int
  copytoy : Int
  copyfromy : Int
  copytosp : Int
  copyfromsp : Int
  jump : Int
  jumpifeq : Int
  jumpifne : Int
  call : Int
  ret : Int
  push : Int
  pop : Int
  put : Int
  incx : Int
  decx : Int
  get : Int
  int : Int
  iret : Int
  halt : Int
  deriving DecidableEq, Repr

/-- The parameters of R4, all of them, which the configuration port of R27 carries, constant during a run. -/
structure Params where
  /-- `XLEN`: width in bits of every register, memory cell and arithmetic result. -/
  xlen : Nat
  /-- `USER_SIZE`: exclusive upper bound of the user zone, first address of the system zone. -/
  userSize : Int
  /-- `SYSTEM_SIZE`: exclusive upper bound of the system zone and of memory (C3). -/
  systemSize : Int
  /-- `TIMER_VECTOR`: entry address of the timer handler. -/
  timerVector : Int
  /-- `SYSCALL_VECTOR`: entry address of the software trap handler. -/
  syscallVector : Int
  /-- `USER_SP_INIT`: reset value of `UserSP`. -/
  userSpInit : Int
  /-- `SYSTEM_SP_INIT`: reset value of `SystemSP`, and what IRET restores. -/
  systemSpInit : Int
  /-- `TIMER_PERIOD`: what the countdown is loaded with. -/
  timerPeriod : Int
  /-- `PORT_INT`: the operand of PUT that selects integer output. -/
  portInt : Int
  /-- `PORT_CHAR`: the operand of PUT that selects character output. -/
  portChar : Int
  /-- `RAND_MIN`: the least value GET may draw. -/
  randMin : Int
  /-- `RAND_MAX`: the greatest value GET may draw. -/
  randMax : Int
  /-- `OPC`: the opcode map. -/
  opc : OpcMap
  /-- `MEM_INIT`: content of every cell the image did not load. -/
  memInit : Int
  /-- `RESET_GPR`: reset value of AC, X, Y and IR. -/
  resetGpr : Int
  deriving DecidableEq, Repr

/-- FREE VALUE (log 11). The word behind the `n`-th draw of the random source where the environment has fixed none
(R27, R107): nothing is known of it; `Machine.boundedDraw` brings it into the bounds that R107 promises. -/
opaque Config.freeDraw : Nat → Int

end Sys2Proof
end

