-- ==== Sys2Proof/Syntax.lean ====
section
/-! DEFINITION. The instruction set as syntax: the 31 rows of spec/opcode_table.json, in the order of
spec/30_encoding.md R53. -/

namespace Sys2Proof

/-- The two formats of R50: `N` is the opcode cell alone, `O` an opcode cell and an operand cell. -/
inductive Format where
  | N | O
  deriving DecidableEq, Repr

/-- The 31 opcodes of R53, without operands; `halt` is END (`end` is a word of Lean). -/
inductive Op where
  | loadv
  | loada
  | loadind
  | loadidxx
  | loadidxy
  | loadspx
  | store
  | addx
  | addy
  | subx
  | suby
  | copytox
  | copyfromx
  | copytoy
  | copyfromy
  | copytosp
  | copyfromsp
  | jump
  | jumpifeq
  | jumpifne
  | call
  | ret
  | push
  | pop
  | put
  | incx
  | decx
  | get
  | int
  | iret
  | halt
  deriving DecidableEq, Repr

/-- The instructions: an opcode of format `O` carries its operand cell, a whole word (R55). -/
inductive Instr where
  /-- LOADV, R70. -/
  | loadv (value : Int)
  /-- LOADA, R71. -/
  | loada (addr : Int)
  /-- LOADIND, R72. -/
  | loadind (addr : Int)
  /-- LOADIDXX, R73. -/
  | loadidxx (base : Int)
  /-- LOADIDXY, R74. -/
  | loadidxy (base : Int)
  /-- LOADSPX, R75. -/
  | loadspx
  /-- STORE, R76. -/
  | store (addr : Int)
  /-- ADDX, R80. -/
  | addx
  /-- ADDY, R81. -/
  | addy
  /-- SUBX, R82. -/
  | subx
  /-- SUBY, R83. -/
  | suby
  /-- COPYTOX, R84. -/
  | copytox
  /-- COPYFROMX, R85. -/
  | copyfromx
  /-- COPYTOY, R86. -/
  | copytoy
  /-- COPYFROMY, R87. -/
  | copyfromy
  /-- COPYTOSP, R88. -/
  | copytosp
  /-- COPYFROMSP, R89. -/
  | copyfromsp
  /-- JUMP, R92. -/
  | jump (target : Int)
  /-- JUMPIFEQ, R93. -/
  | jumpifeq (target : Int)
  /-- JUMPIFNE, R94. -/
  | jumpifne (target : Int)
  /-- CALL, R95. -/
  | call (target : Int)
  /-- RET, R96. -/
  | ret
  /-- PUSH, R97. -/
  | push
  /-- POP, R98. -/
  | pop
  /-- PUT, R101. -/
  | put (port : Int)
  /-- INCX, R105. -/
  | incx
  /-- DECX, R106. -/
  | decx
  /-- GET, R107. -/
  | get
  /-- INT, R108. -/
  | int
  /-- IRET, R109. -/
  | iret
  /-- END, R110. -/
  | halt
  deriving DecidableEq, Repr

/-- The opcode of an instruction. -/
def Instr.op : Instr → Op
  | .loadv _ => .loadv
  | .loada _ => .loada
  | .loadind _ => .loadind
  | .loadidxx _ => .loadidxx
  | .loadidxy _ => .loadidxy
  | .loadspx => .loadspx
  | .store _ => .store
  | .addx => .addx
  | .addy => .addy
  | .subx => .subx
  | .suby => .suby
  | .copytox => .copytox
  | .copyfromx => .copyfromx
  | .copytoy => .copytoy
  | .copyfromy => .copyfromy
  | .copytosp => .copytosp
  | .copyfromsp => .copyfromsp
  | .jump _ => .jump
  | .jumpifeq _ => .jumpifeq
  | .jumpifne _ => .jumpifne
  | .call _ => .call
  | .ret => .ret
  | .push => .push
  | .pop => .pop
  | .put _ => .put
  | .incx => .incx
  | .decx => .decx
  | .get => .get
  | .int => .int
  | .iret => .iret
  | .halt => .halt

/-- The operand cell of an instruction, where it has one (R51). -/
def Instr.operand? : Instr → Option Int
  | .loadv v => some v
  | .loada v => some v
  | .loadind v => some v
  | .loadidxx v => some v
  | .loadidxy v => some v
  | .store v => some v
  | .jump v => some v
  | .jumpifeq v => some v
  | .jumpifne v => some v
  | .call v => some v
  | .put v => some v
  | .loadspx | .addx | .addy | .subx | .suby | .copytox | .copyfromx | .copytoy | .copyfromy | .copytosp | .copyfromsp | .ret
  | .push | .pop | .incx | .decx | .get | .int | .iret | .halt => none

end Sys2Proof
end

