-- ==== Sys2Proof/WellFormed.lean ====
section
/-! DEFINITION. What an instruction and a configuration must satisfy for the rules to hold. An instruction has one check
to pass: its operand cell holds a word of `XLEN` bits, any word (spec/30_encoding.md R55). A configuration has the checks
of spec/00_scope.md R5, one per clause. -/

namespace Sys2Proof

/-- R55: "any `XLEN`-bit word is a legal operand for every format-`O` instruction". -/
abbrev Instr.WellFormed (xlen : Nat) (i : Instr) : Prop := ∀ v ∈ i.operand?, IsWord xlen v

/-- The 31 opcode numbers in the order of R53. -/
def OpcMap.numbers (m : OpcMap) : List Int :=
  [m.loadv, m.loada, m.loadind, m.loadidxx, m.loadidxy, m.loadspx, m.store, m.addx,
   m.addy, m.subx, m.suby, m.copytox, m.copyfromx, m.copytoy, m.copyfromy, m.copytosp,
   m.copyfromsp, m.jump, m.jumpifeq, m.jumpifne, m.call, m.ret, m.push, m.pop,
   m.put, m.incx, m.decx, m.get, m.int, m.iret, m.halt]

/-- R5: "`OPC` injective (31 distinct numbers)". -/
abbrev OpcMap.Injective (m : OpcMap) : Prop := m.numbers.Nodup

namespace Params

/-- R5: `XLEN >= 2`. -/
abbrev WidthOk (p : Params) : Prop := 2 ≤ p.xlen

/-- R5: `0 < USER_SIZE < SYSTEM_SIZE <= 2^(XLEN-1) - 1`. With the other clauses it makes every address parameter
representable as a non-negative word. -/
abbrev ZonesOk (p : Params) : Prop :=
  0 < p.userSize ∧ p.userSize < p.systemSize ∧ p.systemSize ≤ 2 ^ (p.xlen - 1) - 1

/-- R5: `SYSTEM_SIZE - USER_SIZE >= 2`, room for the two words a delivery pushes. -/
abbrev RoomOk (p : Params) : Prop := 2 ≤ p.systemSize - p.userSize

/-- R5: `USER_SIZE <= TIMER_VECTOR < SYSTEM_SIZE`. -/
abbrev TimerVectorOk (p : Params) : Prop := p.userSize ≤ p.timerVector ∧ p.timerVector < p.systemSize

/-- R5: `USER_SIZE <= SYSCALL_VECTOR < SYSTEM_SIZE`. -/
abbrev SyscallVectorOk (p : Params) : Prop := p.userSize ≤ p.syscallVector ∧ p.syscallVector < p.systemSize

/-- R5: `TIMER_PERIOD >= 1`; the countdown that is loaded with it is one word (R19). -/
abbrev PeriodOk (p : Params) : Prop := 1 ≤ p.timerPeriod ∧ IsWord p.xlen p.timerPeriod

/-- R5: `PORT_INT != PORT_CHAR`. -/
abbrev PortsOk (p : Params) : Prop := p.portInt ≠ p.portChar

/-- R5: `RAND_MIN <= RAND_MAX`, both representable in `XLEN` bits signed. -/
abbrev RandOk (p : Params) : Prop := p.randMin ≤ p.randMax ∧ IsWord p.xlen p.randMin ∧ IsWord p.xlen p.randMax

/-- R5: `0 < USER_SP_INIT <= USER_SIZE`. -/
abbrev UserSpOk (p : Params) : Prop := 0 < p.userSpInit ∧ p.userSpInit ≤ p.userSize

/-- R5: `USER_SIZE + 2 <= SYSTEM_SP_INIT <= SYSTEM_SIZE`. -/
abbrev SystemSpOk (p : Params) : Prop := p.userSize + 2 ≤ p.systemSpInit ∧ p.systemSpInit ≤ p.systemSize

/-- R6: the content of a cell and the reset value of a register are words. -/
abbrev FillOk (p : Params) : Prop := IsWord p.xlen p.memInit ∧ IsWord p.xlen p.resetGpr

/-- All of R5, and R6 of the two values that reset puts into registers and cells. -/
structure WellFormed (p : Params) : Prop where
  width : p.WidthOk
  zones : p.ZonesOk
  room : p.RoomOk
  timerVector : p.TimerVectorOk
  syscallVector : p.SyscallVectorOk
  period : p.PeriodOk
  ports : p.PortsOk
  rand : p.RandOk
  userSp : p.UserSpOk
  systemSp : p.SystemSpOk
  opc : p.opc.Injective
  fill : p.FillOk

end Params

end Sys2Proof
end

