-- ==== Sys2Proof/Decode.lean ====
section
/-! DEFINITION. Decoding and encoding (spec/30_encoding.md R50 to R56). The decoder compares the whole opcode cell with
the 31 numbers of an opcode map; the operand cell is taken only for an opcode of format `O`. -/

namespace Sys2Proof

/-- The default opcode map of R53, `[from general knowledge, not in source]` (PRESUMED, D2, log 2). -/
def defaultOpc : OpcMap where
  loadv := 1
  loada := 2
  loadind := 3
  loadidxx := 4
  loadidxy := 5
  loadspx := 6
  store := 7
  addx := 10
  addy := 11
  subx := 12
  suby := 13
  copytox := 14
  copyfromx := 15
  copytoy := 16
  copyfromy := 17
  copytosp := 18
  copyfromsp := 19
  jump := 20
  jumpifeq := 21
  jumpifne := 22
  call := 23
  ret := 24
  push := 27
  pop := 28
  put := 9
  incx := 25
  decx := 26
  get := 8
  int := 29
  iret := 30
  halt := 50

/-- The opcode number `OPC` gives an opcode (R53). -/
def OpcMap.num (m : OpcMap) : Op → Int
  | .loadv => m.loadv
  | .loada => m.loada
  | .loadind => m.loadind
  | .loadidxx => m.loadidxx
  | .loadidxy => m.loadidxy
  | .loadspx => m.loadspx
  | .store => m.store
  | .addx => m.addx
  | .addy => m.addy
  | .subx => m.subx
  | .suby => m.suby
  | .copytox => m.copytox
  | .copyfromx => m.copyfromx
  | .copytoy => m.copytoy
  | .copyfromy => m.copyfromy
  | .copytosp => m.copytosp
  | .copyfromsp => m.copyfromsp
  | .jump => m.jump
  | .jumpifeq => m.jumpifeq
  | .jumpifne => m.jumpifne
  | .call => m.call
  | .ret => m.ret
  | .push => m.push
  | .pop => m.pop
  | .put => m.put
  | .incx => m.incx
  | .decx => m.decx
  | .get => m.get
  | .int => m.int
  | .iret => m.iret
  | .halt => m.halt

/-- The opcodes in the order the decoder tries them: END first, as the halt test of R64 precedes dispatch. Under an
injective map (R5) the order is of no consequence (log 23). -/
def Op.searchOrder : List Op :=
  [.halt,
   .loadv, .loada, .loadind, .loadidxx, .loadidxy, .loadspx, .store, .addx, .addy, .subx,
   .suby, .copytox, .copyfromx, .copytoy, .copyfromy, .copytosp, .copyfromsp, .jump, .jumpifeq, .jumpifne,
   .call, .ret, .push, .pop, .put, .incx, .decx, .get, .int, .iret]

/-- The static operand class of R51: the eleven opcodes of format `O`; the other twenty are `N`. -/
def Op.format : Op → Format
  | .loadv | .loada | .loadind | .loadidxx | .loadidxy | .store | .jump | .jumpifeq | .jumpifne | .call | .put => .O
  | .loadspx | .addx | .addy | .subx | .suby | .copytox | .copyfromx | .copytoy | .copyfromy | .copytosp | .copyfromsp | .ret
  | .push | .pop | .incx | .decx | .get | .int | .iret | .halt => .N

/-- The number of cells of a format (R50). -/
def Format.cells : Format → Nat
  | .N => 1
  | .O => 2

/-- The instruction an opcode and its operand cell make; an opcode of format `N` has none and ignores it. -/
def Op.assemble (v : Int) : Op → Instr
  | .loadv => .loadv v
  | .loada => .loada v
  | .loadind => .loadind v
  | .loadidxx => .loadidxx v
  | .loadidxy => .loadidxy v
  | .loadspx => .loadspx
  | .store => .store v
  | .addx => .addx
  | .addy => .addy
  | .subx => .subx
  | .suby => .suby
  | .copytox => .copytox
  | .copyfromx => .copyfromx
  | .copytoy => .copytoy
  | .copyfromy => .copyfromy
  | .copytosp => .copytosp
  | .copyfromsp => .copyfromsp
  | .jump => .jump v
  | .jumpifeq => .jumpifeq v
  | .jumpifne => .jumpifne v
  | .call => .call v
  | .ret => .ret
  | .push => .push
  | .pop => .pop
  | .put => .put v
  | .incx => .incx
  | .decx => .decx
  | .get => .get
  | .int => .int
  | .iret => .iret
  | .halt => .halt

/-- Why a row of cells is no instruction. Safe: nothing is decoded. -/
inductive DecodeError where
  /-- There is no cell to decode. -/
  | noCells
  /-- The opcode cell is none of the 31 numbers: an unknown opcode (R54). -/
  | unknownOpcode (w : Int)
  /-- The opcode is of format `O` and no operand cell follows. -/
  | operandMissing (o : Op)
  deriving DecidableEq, Repr

/-- The opcode a cell holds: the whole cell is compared, without a mask (R52). -/
def decodeOp (m : OpcMap) (w : Int) : Option Op := Op.searchOrder.find? fun o => m.num o == w

/-- Decode the instruction at the head of a row of cells, with the cells after it. -/
def decode (m : OpcMap) : List Int → Except DecodeError (Instr × List Int)
  | [] => .error .noCells
  | w :: rest =>
    match decodeOp m w with
    | none => .error (.unknownOpcode w)
    | some o =>
      match o.format, rest with
      | .N, rest => .ok (o.assemble 0, rest)
      | .O, v :: rest => .ok (o.assemble v, rest)
      | .O, [] => .error (.operandMissing o)

/-- The cells of an instruction (R50): the opcode number, then the operand of a format `O` instruction. -/
def encode (m : OpcMap) (i : Instr) : List Int := m.num i.op :: i.operand?.toList

/-- The length of an instruction in cells, known from its opcode alone (R52). -/
def Instr.cells (i : Instr) : Nat := i.op.format.cells

/-- The two cells, of `xlen` bits each, of an instruction whose bits are `w`, numbered as spec/opcode_table.json numbers
them: bit 0 is the least significant bit of the opcode cell, and the operand cell's bits count on from the opcode cell's;
every bit from `nbits` on is 0. -/
def tableCells (xlen nbits w : Nat) : List Int :=
  [wrap xlen (w % 2 ^ nbits : Nat), wrap xlen (w % 2 ^ nbits / 2 ^ xlen : Nat)]

/-- The instruction the decoder reads, under the default opcode map and width, from an instruction whose bits are `w`. -/
def decodeTableWord (nbits w : Nat) : Option Instr :=
  match decode defaultOpc (tableCells 32 nbits w) with
  | .ok (i, _) => some i
  | .error _ => none

end Sys2Proof
end

