-- ==== Sys2Proof/Machine/Defaults.lean ====
section
/-! DEFINITION. The default values of the parameters (spec/00_scope.md R4). Every one of them is the spec's own choice or
recalled from general knowledge (logs 1 to 6 and 16): statements are about every configuration, not about these values. -/

namespace Sys2Proof.Machine

/-- The defaults of R4 (PRESUMED: D2, D4, D5, D6, D17, D19, logs 2, 3, 16. DESIGN CHOICE: D1, D7, D9, logs 1, 4, 6). R4 gives
`TIMER_PERIOD` no default: 1000 is the model's (DESIGN CHOICE, log 5). -/
def defaultParams : Params where
  xlen := 32
  userSize := 1000
  systemSize := 2000
  timerVector := 1000
  syscallVector := 1500
  userSpInit := 1000
  systemSpInit := 2000
  timerPeriod := 1000
  portInt := 1
  portChar := 2
  randMin := 1
  randMax := 100
  opc := defaultOpc
  memInit := 0
  resetGpr := 0

end Sys2Proof.Machine
end

