-- ==== Sys2Proof/Machine/State.lean ====
section
/-! DEFINITION. The state of the machine (spec/10_state.md), plain data: the registers, the mode and control flags, the
countdown and the fault record of R10 to R20, the operand latch of R26, and the environment of R27: the configuration, the
memory, the output history and the unread random words. Beside it the updates that everything else is built from. -/

namespace Sys2Proof.Machine

/-- One listed cell of memory: its address and its word. The machine has no bytes (R35), so the pair is not
`Host.Cell` (log 7). -/
abbrev Cell := Nat × Int

/-- The addressable memory as the cells that differ from `MEM_INIT`, addresses strictly rising. -/
abbrev Memory := List Cell

/-- The kind of an output record (R100). -/
inductive OutKind where
  | int | char
  deriving DecidableEq, Repr

/-- One record of the output channel (R100). -/
structure OutRecord where
  kind : OutKind
  word : Int
  deriving DecidableEq, Repr

/-- The fault record of R20 where it is not `None`: the three kinds of R122. It is part of the state of a stopped core; a
fault is a next state, not an `Outcome.fault` (log 9). -/
inductive FaultRecord where
  /-- The opcode cell is none of the 31 numbers (R66). -/
  | unknownOpcode (opcode address : Int)
  /-- A user-mode memory-referencing instruction resolved an address inside the system zone (R38). -/
  | protectionFault (address opcode instructionAddress : Int)
  /-- The memory rejected an access outside `[0, SYSTEM_SIZE)` (R34). -/
  | memRangeFault (address : Int)
  deriving DecidableEq, Repr

/-- The state of the machine. -/
structure State where
  /-- The configuration port, constant during a run (R27). -/
  cfg : Params
  /-- `PC` (R10). -/
  pc : Int
  /-- `AC` (R11). -/
  ac : Int
  /-- `X` (R11). -/
  x : Int
  /-- `Y` (R11). -/
  y : Int
  /-- `IR` (R12). -/
  ir : Int
  /-- `UserSP` (R13). -/
  userSp : Int
  /-- `SystemSP` (R14). -/
  systemSp : Int
  /-- `inSystemMode` (R16). -/
  inSystemMode : Bool
  /-- `interruptsEnabled` (R17). -/
  interruptsEnabled : Bool
  /-- `running` (R18). -/
  running : Bool
  /-- `countdown` (R19). -/
  countdown : Int
  /-- `fault` (R20). -/
  fault : Option FaultRecord
  /-- The operand latch (R26 b): the operand cell of the last two-cell instruction; no instruction reads what an earlier
  step left in it (log 13). -/
  operandLatch : Int
  /-- The addressable memory (R27, R30). -/
  mem : Memory
  /-- The output history, oldest record first (R100). -/
  output : List OutRecord
  /-- The unread random words that the environment has already fixed, next one first (R27, log 11). -/
  randomNext : List Int
  /-- The model's own: how many random words GET has taken (log 11). -/
  draws : Nat
  deriving DecidableEq, Repr

/-- The reasons a step could stop with a fault outside the spec's own stopped state. THERE ARE NONE: every fault of R122
is a next state in which `running` is false and the fault record is written (log 9). -/
inductive Fault
  deriving DecidableEq, Repr

/-- The reasons a step could refuse. -/
inductive Refusal where
  /-- Raised only by an arm of `exec` whose instruction has no meaning yet; safe. No arm of this model does. -/
  | notModelled (mnemonic : String)
  deriving DecidableEq, Repr

namespace State

/-- The machine right after reset (R25, R150) under a configuration, with a memory image loaded before it (R151). No random
word is fixed yet. -/
def resetWith (p : Params) (image : Memory) : State where
  cfg := p
  pc := 0
  ac := p.resetGpr
  x := p.resetGpr
  y := p.resetGpr
  ir := p.resetGpr
  userSp := p.userSpInit
  systemSp := p.systemSpInit
  inSystemMode := false
  interruptsEnabled := true
  running := true
  countdown := p.timerPeriod
  fault := none
  operandLatch := 0
  mem := image
  output := []
  randomNext := []
  draws := 0

/-- The machine right after reset, with the default parameters and no program loaded. -/
def reset : State := resetWith defaultParams []

/-- Write `PC`. -/
def setPc (s : State) (v : Int) : State := { s with pc := v }

/-- Write `AC`. -/
def setAc (s : State) (v : Int) : State := { s with ac := v }

/-- Write `X`. -/
def setX (s : State) (v : Int) : State := { s with x := v }

/-- Write `Y`. -/
def setY (s : State) (v : Int) : State := { s with y := v }

/-- Write `IR`. -/
def setIr (s : State) (v : Int) : State := { s with ir := v }

/-- Write `UserSP`. -/
def setUserSp (s : State) (v : Int) : State := { s with userSp := v }

/-- Write `SystemSP`. -/
def setSystemSp (s : State) (v : Int) : State := { s with systemSp := v }

/-- Write the mode bit and the trap mask together, as `Deliver` and IRET do (R16, R17). -/
def setMode (s : State) (system enabled : Bool) : State := { s with inSystemMode := system, interruptsEnabled := enabled }

/-- Write the countdown. -/
def setCountdown (s : State) (v : Int) : State := { s with countdown := v }

/-- Write the operand latch. -/
def setOperandLatch (s : State) (v : Int) : State := { s with operandLatch := v }

/-- Replace the memory. -/
def setMem (s : State) (m : Memory) : State := { s with mem := m }

/-- Clear `running` (R18). -/
def halt (s : State) : State := { s with running := false }

/-- Write the fault record (R20). -/
def setFault (s : State) (f : FaultRecord) : State := { s with fault := some f }

/-- Append one record to the output history (R100). -/
def emit (s : State) (r : OutRecord) : State := { s with output := s.output ++ [r] }

/-- Consume one draw of the random source, leaving `rest` of the words already fixed. -/
def consumeDraw (s : State) (rest : List Int) : State := { s with randomNext := rest, draws := s.draws + 1 }

end State

end Sys2Proof.Machine
end

