-- ==== Sys2Proof/Machine/Memory.lean ====
section
/-! DEFINITION. The memory as data (spec/20_memory.md R30, R33): reading and writing one cell of the canonical list, and
the form the list keeps. A cell that is not listed holds `fill`, which is the configuration's `MEM_INIT` (R4, D9, log 6).
The port of the core, with its range check, is in Machine/Ops.lean. -/

namespace Sys2Proof.Machine

/-- The word of cell `a`: what was last written there, `fill` if nothing was (R33). -/
def readCell (fill : Int) : Memory → Nat → Int
  | [], _ => fill
  | (b, w) :: rest, a => if b = a then w else readCell fill rest a

/-- Put the word `v` in front, unless it is what an unlisted cell reads as. -/
def consCell (fill : Int) (a : Nat) (v : Int) (m : Memory) : Memory := if v = fill then m else (a, v) :: m

/-- The memory after the word `v` is written to cell `a`, every other cell unchanged (R33). -/
def writeCell (fill : Int) : Memory → Nat → Int → Memory
  | [], a, v => consCell fill a v []
  | (b, w) :: rest, a, v =>
    if b < a then (b, w) :: writeCell fill rest a v
    else if b = a then consCell fill a v rest
    else consCell fill a v ((b, w) :: rest)

/-- The canonical form: addresses strictly rising, no cell listed that holds `fill`. -/
abbrev Memory.wf (fill : Int) (m : Memory) : Prop := (m.map Prod.fst).Pairwise (· < ·) ∧ ∀ c ∈ m, c.2 ≠ fill

/-- Every listed cell is one of the configuration's: its address is below `SYSTEM_SIZE` (R30), its content a word (R6). -/
abbrev Memory.fits (p : Params) (m : Memory) : Prop := ∀ c ∈ m, (c.1 : Int) < p.systemSize ∧ IsWord p.xlen c.2

/-- The word of cell `a` in a state. -/
def State.cell (s : State) (a : Nat) : Int := readCell s.cfg.memInit s.mem a

end Sys2Proof.Machine
end

