-- ==== Sys2Proof/Machine/Ops.lean ====
section
/-! DEFINITION. The named operations of spec/00_scope.md R7 that every instruction is built from: raising a fault, the
memory port, the protection checker, the active stack pointer, push and pop, the delivery of an interrupt and the return
from one, output and the random source. -/

namespace Sys2Proof.Machine

/-- What a piece of a step does: it goes on with a value, or the step ends there (R121, "the step ends at that point of its
pseudocode"), in the stopped state it carries. -/
inductive Ran (α : Type) where
  | ok (a : α) (s : State)
  | stopped (s : State)
  deriving DecidableEq, Repr

/-- One piece of a step after another; nothing follows a `raise`. -/
def Ran.andThen {α β : Type} : Ran α → (α → State → Ran β) → Ran β
  | .ok a s, f => f a s
  | .stopped s, _ => .stopped s

/-- The state a step ends in. A stopped core is a next state (R133, log 9). -/
def Ran.outcome : Ran Unit → Host.Outcome State Fault Refusal
  | .ok _ s => .next s
  | .stopped s => .next s

/-- `raise F(info)` (R121): `running <- false`, `fault <- F(info)`, and the step ends; everything done before stays done. -/
def raise {α : Type} (f : FaultRecord) (s : State) : Ran α := .stopped (s.halt.setFault f)

/-- The valid addresses, `0 <= a < SYSTEM_SIZE`, signed (R30). -/
def inRange (p : Params) (a : Int) : Bool := decide (0 ≤ a ∧ a < p.systemSize)

/-- The system zone, `USER_SIZE <= a < SYSTEM_SIZE`, signed (R31). -/
def inSystemZone (p : Params) (a : Int) : Bool := decide (p.userSize ≤ a ∧ a < p.systemSize)

/-- `MemRead(a, 1)` (R33): the word of cell `a`; out of range, the access is rejected (R34). -/
def memRead (a : Int) (s : State) : Ran Int :=
  if inRange s.cfg a then .ok (s.cell a.toNat) s else raise (.memRangeFault a) s

/-- `MemWrite(a, 1, v)` (R33): cell `a` holds `v`; out of range, the access is rejected and no cell changes (R34). -/
def memWrite (a v : Int) (s : State) : Ran Unit :=
  if inRange s.cfg a then .ok () (s.setMem (writeCell s.cfg.memInit s.mem a.toNat v)) else raise (.memRangeFault a) s

/-- The address the opcode of a two-cell instruction was fetched from, while it executes: `PC - 2` (R38). -/
def instructionAddress (s : State) : Int := wrap s.cfg.xlen (s.pc - 2)

/-- `ProtCheck(a)` (R38): in user mode an address in the system zone raises a protection fault; otherwise nothing. -/
def protCheck (a : Int) (s : State) : Ran Unit :=
  if s.inSystemMode = false ∧ inSystemZone s.cfg a then raise (.protectionFault a s.ir (instructionAddress s)) s
  else .ok () s

/-- `SP`, the active stack pointer, on reads (R15). -/
def activeSp (s : State) : Int := if s.inSystemMode then s.systemSp else s.userSp

/-- `SP`, the active stack pointer, on writes (R15). -/
def setActiveSp (s : State) (v : Int) : State := if s.inSystemMode then s.setSystemSp v else s.setUserSp v

/-- `Push(v)` (R90): pre-decrement, kept if the write is rejected; not protection-checked. -/
def push (v : Int) (s : State) : Ran Unit :=
  memWrite (wrap s.cfg.xlen (activeSp s - 1)) v (setActiveSp s (wrap s.cfg.xlen (activeSp s - 1)))

/-- `Pop()` (R91): the read is made first, then the post-increment; not protection-checked. -/
def pop (s : State) : Ran Int :=
  (memRead (activeSp s) s).andThen fun v s => .ok v (setActiveSp s (wrap s.cfg.xlen (activeSp s + 1)))

/-- One half of `Deliver`: `SystemSP <- SystemSP - 1; MemWrite(SystemSP, 1, v)`, on the system stack in either mode (R126). -/
def pushSystem (v : Int) (s : State) : Ran Unit :=
  memWrite (wrap s.cfg.xlen (s.systemSp - 1)) v (s.setSystemSp (wrap s.cfg.xlen (s.systemSp - 1)))

/-- One pop of IRET: `v <- MemRead(SystemSP, 1); SystemSP <- SystemSP + 1` (R109). -/
def popSystem (s : State) : Ran Int :=
  (memRead s.systemSp s).andThen fun v s => .ok v (s.setSystemSp (wrap s.cfg.xlen (s.systemSp + 1)))

/-- `Deliver(target)` (R126), the one way into system mode: `PC` then `UserSP` go on the system stack, `PC` becomes the
target, the mode system and the trap masked. -/
def deliver (target : Int) (s : State) : Ran Unit :=
  (pushSystem s.pc s).andThen fun _ s =>
  (pushSystem s.userSp s).andThen fun _ s =>
  .ok () ((s.setPc target).setMode true false)

/-- The return of R109, made in system mode: `UserSP` then `PC` come off the system stack, `SystemSP` goes back to its
reset value, the mode becomes user and the trap enabled. -/
def returnFromInterrupt (s : State) : Ran Unit :=
  (popSystem s).andThen fun u s =>
  (popSystem (s.setUserSp u)).andThen fun p s =>
  .ok () (((s.setPc p).setSystemSp s.cfg.systemSpInit).setMode false true)

/-- The word of `[lo, hi]` that stands for `w`: `w` itself where it lies in the bounds, so that the random port carries
one word within the bounds per request (R27, R107). -/
def boundedDraw (lo hi w : Int) : Int := lo + (w - lo) % (hi - lo + 1)

/-- The next word of the random source (R27, log 11): the first one the environment has fixed; where it has fixed none, a
free value. -/
def nextRandom (s : State) : Int :=
  match s.randomNext with
  | w :: _ => boundedDraw s.cfg.randMin s.cfg.randMax w
  | [] => boundedDraw s.cfg.randMin s.cfg.randMax (Config.freeDraw s.draws)

/-- `RandomDraw()` (R107): the next word, and one draw consumed. -/
def randomDraw (s : State) : Ran Int := .ok (nextRandom s) (s.consumeDraw s.randomNext.tail)

/-- `Output(kind, v)` (R100): one record appended to the output history. -/
def output (k : OutKind) (v : Int) (s : State) : Ran Unit := .ok () (s.emit ⟨k, v⟩)

end Sys2Proof.Machine
end

