-- ==== Sys2Proof/Machine/Operands.lean ====
section
/-! DEFINITION. The addressing of spec/30_encoding.md R55: how an operand cell, an index register and the active stack
pointer give the address of a datum, and the two shapes of load built on it. There is no scaling and no shifting; every
sum wraps (R79). -/

namespace Sys2Proof.Machine

/-- `wrap(operand + X)`, the data address of LOADIDXX (R39, R73). -/
def indexedByX (operand : Int) (s : State) : Int := wrap s.cfg.xlen (operand + s.x)

/-- `wrap(operand + Y)`, the data address of LOADIDXY (R39, R74). -/
def indexedByY (operand : Int) (s : State) : Int := wrap s.cfg.xlen (operand + s.y)

/-- `wrap(SP + X)`, the data address of LOADSPX (R75). -/
def stackRelative (s : State) : Int := wrap s.cfg.xlen (activeSp s + s.x)

/-- Read a data address, checked first: "the check is made on the resolved address *before* performing the access" (R38). -/
def readChecked (ea : Int) (s : State) : Ran Int := (protCheck ea s).andThen fun _ s => memRead ea s

/-- Write a data address, checked first (R38). -/
def writeChecked (ea v : Int) (s : State) : Ran Unit := (protCheck ea s).andThen fun _ s => memWrite ea v s

/-- Every load ends by writing the word to `AC` (41_load_store.md). -/
def intoAc (r : Ran Int) : Ran Unit := r.andThen fun v s => .ok () (s.setAc v)

end Sys2Proof.Machine
end

