-- ==== Sys2Proof/Machine/Flags.lean ====
section
/-! DEFINITION. The conditions of the machine. There are no status flags and no condition codes (spec/10_state.md R23):
the conditional jumps test `AC` itself, on all its bits (R93, R94). -/

namespace Sys2Proof.Machine

/-- `AC = 0` (R93). -/
def acIsZero (s : State) : Bool := s.ac == 0

end Sys2Proof.Machine
end

