-- ==== Sys2Proof/Machine/Arith.lean ====
section
/-! DEFINITION. Arithmetic and register transfer (spec/42_arith_transfer.md R80 to R89). Every result wraps at the width of
a word (R79); no flag is written, no fault is raised, memory is not touched. -/

namespace Sys2Proof.Machine

/-- ADDX (R80). -/
def execAddx (s : State) : Host.Outcome State Fault Refusal := .next (s.setAc (wrap s.cfg.xlen (s.ac + s.x)))

/-- ADDY (R81). -/
def execAddy (s : State) : Host.Outcome State Fault Refusal := .next (s.setAc (wrap s.cfg.xlen (s.ac + s.y)))

/-- SUBX (R82): `AC` is the minuend. -/
def execSubx (s : State) : Host.Outcome State Fault Refusal := .next (s.setAc (wrap s.cfg.xlen (s.ac - s.x)))

/-- SUBY (R83): `AC` is the minuend. -/
def execSuby (s : State) : Host.Outcome State Fault Refusal := .next (s.setAc (wrap s.cfg.xlen (s.ac - s.y)))

/-- COPYTOX (R84). -/
def execCopytox (s : State) : Host.Outcome State Fault Refusal := .next (s.setX s.ac)

/-- COPYFROMX (R85). -/
def execCopyfromx (s : State) : Host.Outcome State Fault Refusal := .next (s.setAc s.x)

/-- COPYTOY (R86). -/
def execCopytoy (s : State) : Host.Outcome State Fault Refusal := .next (s.setY s.ac)

/-- COPYFROMY (R87). -/
def execCopyfromy (s : State) : Host.Outcome State Fault Refusal := .next (s.setAc s.y)

/-- COPYTOSP (R88): the active stack pointer; the value is not checked. -/
def execCopytosp (s : State) : Host.Outcome State Fault Refusal := .next (setActiveSp s s.ac)

/-- COPYFROMSP (R89): the active stack pointer. -/
def execCopyfromsp (s : State) : Host.Outcome State Fault Refusal := .next (s.setAc (activeSp s))

end Sys2Proof.Machine
end

