-- ==== Sys2Proof/Machine/Control.lean ====
section
/-! DEFINITION. Control transfer and the stack (spec/43_control_stack.md R92 to R98). `PC` already stands after the
instruction, operand included (R65). A target is not checked when it is written. -/

namespace Sys2Proof.Machine

/-- JUMP (R92). -/
def execJump (target : Int) (s : State) : Host.Outcome State Fault Refusal := .next (s.setPc target)

/-- JUMPIFEQ (R93). -/
def execJumpifeq (target : Int) (s : State) : Host.Outcome State Fault Refusal :=
  .next (if acIsZero s then s.setPc target else s)

/-- JUMPIFNE (R94). -/
def execJumpifne (target : Int) (s : State) : Host.Outcome State Fault Refusal :=
  .next (if acIsZero s then s else s.setPc target)

/-- CALL (R95): the return address, the address of the cell after the operand, goes on the active stack. -/
def execCall (target : Int) (s : State) : Host.Outcome State Fault Refusal :=
  ((push s.pc s).andThen fun _ s => .ok () (s.setPc target)).outcome

/-- RET (R96): the mode does not change. -/
def execRet (s : State) : Host.Outcome State Fault Refusal := ((pop s).andThen fun v s => .ok () (s.setPc v)).outcome

/-- PUSH (R97). -/
def execPush (s : State) : Host.Outcome State Fault Refusal := (push s.ac s).outcome

/-- POP (R98). -/
def execPop (s : State) : Host.Outcome State Fault Refusal := (intoAc (pop s)).outcome

end Sys2Proof.Machine
end

