-- ==== Sys2Proof/Machine/Io.lean ====
section
/-! DEFINITION. Output (spec/44_io.md R101). -/

namespace Sys2Proof.Machine

/-- PUT (R101): the operand selects the kind of the record; any other operand emits nothing and is no error. -/
def execPut (port : Int) (s : State) : Host.Outcome State Fault Refusal :=
  (if port = s.cfg.portInt then output .int s.ac s
   else if port = s.cfg.portChar then output .char s.ac s
   else .ok () s).outcome

end Sys2Proof.Machine
end

