-- ==== Sys2Proof/Machine/LoadStore.lean ====
section
/-! DEFINITION. Loads and the store (spec/41_load_store.md R70 to R76). A meaning runs after phases 1 to 3 and the operand
fetch (40_cycle.md R62 to R65): `PC` stands after the instruction and `IR` holds its opcode. -/

namespace Sys2Proof.Machine

/-- LOADV (R70): `AC <- operand`; a value, never checked. -/
def execLoadv (value : Int) (s : State) : Host.Outcome State Fault Refusal := .next (s.setAc value)

/-- LOADA (R71). -/
def execLoada (addr : Int) (s : State) : Host.Outcome State Fault Refusal := (intoAc (readChecked addr s)).outcome

/-- LOADIND (R72): the pointer cell is checked and read, then the address it holds is checked and read. -/
def execLoadind (addr : Int) (s : State) : Host.Outcome State Fault Refusal :=
  (intoAc ((readChecked addr s).andThen fun p s => readChecked p s)).outcome

/-- LOADIDXX (R73): the check is on the sum. -/
def execLoadidxx (base : Int) (s : State) : Host.Outcome State Fault Refusal :=
  (intoAc (readChecked (indexedByX base s) s)).outcome

/-- LOADIDXY (R74): the check is on the sum. -/
def execLoadidxy (base : Int) (s : State) : Host.Outcome State Fault Refusal :=
  (intoAc (readChecked (indexedByY base s) s)).outcome

/-- LOADSPX (R75): no protection check (R40 d). -/
def execLoadspx (s : State) : Host.Outcome State Fault Refusal := (intoAc (memRead (stackRelative s) s)).outcome

/-- STORE (R76). -/
def execStore (addr : Int) (s : State) : Host.Outcome State Fault Refusal := (writeChecked addr s.ac s).outcome

end Sys2Proof.Machine
end

