-- ==== Sys2Proof/Machine/Misc.lean ====
section
/-! DEFINITION. Miscellaneous and system instructions (spec/45_misc.md R105 to R110). -/

namespace Sys2Proof.Machine

/-- INCX (R105). -/
def execIncx (s : State) : Host.Outcome State Fault Refusal := .next (s.setX (wrap s.cfg.xlen (s.x + 1)))

/-- DECX (R106). -/
def execDecx (s : State) : Host.Outcome State Fault Refusal := .next (s.setX (wrap s.cfg.xlen (s.x - 1)))

/-- GET (R107): one draw of the random source. -/
def execGet (s : State) : Host.Outcome State Fault Refusal := (intoAc (randomDraw s)).outcome

/-- INT (R108): masked by `interruptsEnabled` alone; a masked trap is dropped (R125). -/
def execInt (s : State) : Host.Outcome State Fault Refusal :=
  (if s.interruptsEnabled then deliver s.cfg.syscallVector s else .ok () s).outcome

/-- IRET (R109): the return in system mode; in user mode it does nothing. -/
def execIret (s : State) : Host.Outcome State Fault Refusal :=
  (if s.inSystemMode then returnFromInterrupt s else .ok () s).outcome

/-- END (R64, R110). -/
def execEnd (s : State) : Host.Outcome State Fault Refusal := .next s.halt

end Sys2Proof.Machine
end

