-- ==== Sys2Proof/Machine/Dispatch.lean ====
section
/-! DEFINITION. Which meaning each instruction has (spec/40_cycle.md R66): one arm per constructor of Instr. -/

namespace Sys2Proof.Machine

def exec (i : Instr) (s : State) : Host.Outcome State Fault Refusal :=
  match i with
  | .loadv value => Sys2Proof.Machine.execLoadv value s
  | .loada addr => Sys2Proof.Machine.execLoada addr s
  | .loadind addr => Sys2Proof.Machine.execLoadind addr s
  | .loadidxx base => Sys2Proof.Machine.execLoadidxx base s
  | .loadidxy base => Sys2Proof.Machine.execLoadidxy base s
  | .loadspx => Sys2Proof.Machine.execLoadspx s
  | .store addr => Sys2Proof.Machine.execStore addr s
  | .addx => Sys2Proof.Machine.execAddx s
  | .addy => Sys2Proof.Machine.execAddy s
  | .subx => Sys2Proof.Machine.execSubx s
  | .suby => Sys2Proof.Machine.execSuby s
  | .copytox => Sys2Proof.Machine.execCopytox s
  | .copyfromx => Sys2Proof.Machine.execCopyfromx s
  | .copytoy => Sys2Proof.Machine.execCopytoy s
  | .copyfromy => Sys2Proof.Machine.execCopyfromy s
  | .copytosp => Sys2Proof.Machine.execCopytosp s
  | .copyfromsp => Sys2Proof.Machine.execCopyfromsp s
  | .jump target => Sys2Proof.Machine.execJump target s
  | .jumpifeq target => Sys2Proof.Machine.execJumpifeq target s
  | .jumpifne target => Sys2Proof.Machine.execJumpifne target s
  | .call target => Sys2Proof.Machine.execCall target s
  | .ret => Sys2Proof.Machine.execRet s
  | .push => Sys2Proof.Machine.execPush s
  | .pop => Sys2Proof.Machine.execPop s
  | .put port => Sys2Proof.Machine.execPut port s
  | .incx => Sys2Proof.Machine.execIncx s
  | .decx => Sys2Proof.Machine.execDecx s
  | .get => Sys2Proof.Machine.execGet s
  | .int => Sys2Proof.Machine.execInt s
  | .iret => Sys2Proof.Machine.execIret s
  | .halt => Sys2Proof.Machine.execEnd s

end Sys2Proof.Machine
end

