-- ==== Sys2Proof/Machine/Fetch.lean ====
section
/-! DEFINITION. The phases of a step that come before an instruction's own meaning (spec/40_cycle.md R62 to R66): the timer
phase, the opcode fetch, decoding with the unknown-opcode fault, the operand fetch. -/

namespace Sys2Proof.Machine

/-- `countdown - 1 <= 0` in a step that begins in user mode: the timer fires in it (R62). `interruptsEnabled` is not
consulted (R124). -/
def timerFires (s : State) : Bool := !s.inSystemMode && decide (wrap s.cfg.xlen (s.countdown - 1) ≤ 0)

/-- Phase 1 (R62). The reload comes after the delivery. -/
def timerPhase (s : State) : Ran Unit :=
  if s.inSystemMode then .ok () s
  else if timerFires s then
    (deliver s.cfg.timerVector (s.setCountdown (wrap s.cfg.xlen (s.countdown - 1)))).andThen fun _ s =>
    .ok () (s.setCountdown s.cfg.timerPeriod)
  else .ok () (s.setCountdown (wrap s.cfg.xlen (s.countdown - 1)))

/-- Phase 2 (R63): the cell at `PC` goes to `IR`, then `PC` is incremented; a rejected read leaves both. Not
protection-checked (R40 a). -/
def fetchOpcode (s : State) : Ran Int :=
  (memRead s.pc s).andThen fun w s => .ok w ((s.setIr w).setPc (wrap s.cfg.xlen (s.pc + 1)))

/-- The operand fetch (R65): the cell at `PC` goes to the operand latch, then `PC` is incremented. Not protection-checked. -/
def fetchOperand (s : State) : Ran Int :=
  (memRead s.pc s).andThen fun v s => .ok v ((s.setOperandLatch v).setPc (wrap s.cfg.xlen (s.pc + 1)))

/-- The instruction of an opcode, its operand fetched where the opcode's format has one (R65). -/
def fetchInstr (o : Op) (s : State) : Ran Instr :=
  match o.format with
  | .N => .ok (o.assemble 0) s
  | .O => (fetchOperand s).andThen fun v s => .ok (o.assemble v) s

/-- Phases 2 to 4 up to the instruction's own meaning: fetch, decode (R52), the unknown-opcode fault with the cell and the
address it was fetched from (R66), the operand fetch. -/
def fetch (s : State) : Ran Instr :=
  (fetchOpcode s).andThen fun w t =>
  match decodeOp s.cfg.opc w with
  | none => raise (.unknownOpcode w s.pc) t
  | some o => fetchInstr o t

/-- The phases before an instruction's own meaning: the timer phase and the fetch. A delivery does not end the step (R61, D22). -/
def prepare (s : State) : Ran Instr := (timerPhase s).andThen fun _ s => fetch s

/-- The cells at `PC` that a fetch can reach, at most an opcode cell and an operand cell. -/
def codeCells (s : State) : List Int :=
  if inRange s.cfg s.pc then
    s.cell s.pc.toNat ::
      if inRange s.cfg (wrap s.cfg.xlen (s.pc + 1)) then [s.cell (wrap s.cfg.xlen (s.pc + 1)).toNat] else []
  else []

/-- Where a step from `s` fetches its opcode: at `PC`, or at the timer handler's entry if the timer fires in it. -/
def fetchAddress (s : State) : Int := if timerFires s then s.cfg.timerVector else s.pc

/-- The memory with a row of cells stored from address `a` on, those that exist. -/
def placeCells (p : Params) (a : Int) : List Int → Memory → Memory
  | [], m => m
  | w :: rest, m => placeCells p (wrap p.xlen (a + 1)) rest (if inRange p a then writeCell p.memInit m a.toNat w else m)

end Sys2Proof.Machine
end

