-- ==== Sys2Proof/Machine/Step.lean ====
section
/-! DEFINITION. One step of the machine (spec/40_cycle.md R60, R61, R67): one whole cycle of the loop, atomic (R9). -/

namespace Sys2Proof.Machine

/-- One step. A core that is not running does nothing (R60); a running one goes through the timer phase, the fetch and the
instruction's own meaning; a fault raised before the meaning ends the step in the stopped state. -/
def step (s : State) : Host.Outcome State Fault Refusal :=
  if s.running then
    match prepare s with
    | .ok i t => exec i t
    | .stopped t => .next t
  else .next s

/-- `s` with the instruction whose bits are `w` (its opcode cell and its operand cell) stored where a step from `s` fetches
its instruction, and nothing else changed. It stands for the load of a program from outside (log 15). -/
def State.withFetchWord (s : State) (nbits w : Nat) : State :=
  s.setMem (placeCells s.cfg (fetchAddress s) (tableCells s.cfg.xlen nbits w) s.mem)

end Sys2Proof.Machine
end

