-- ==== Sys2Proof/Safety.lean ====
section
/-! DEFINITION. The terms that claims are stated in: how a run ends, which accesses the checker lets pass, what a fetch
leaves, the invariant of the reachable states, and the count of user-steps. -/

namespace Sys2Proof.Machine

/-- The word that the result `v` of an addition or subtraction becomes (R79). -/
abbrev State.word (s : State) (v : Int) : Int := wrap s.cfg.xlen v

/-- The run ended by END: the only normal ending (R20, R69). -/
def State.EndedNormally (s : State) : Prop := s.running = false ∧ s.fault = none

/-- The run ended by a fault (R69). -/
def State.Faulted (s : State) : Prop := s.running = false ∧ s.fault ≠ none

/-- The checker lets an access at `a` pass (R38). -/
abbrev Allowed (s : State) (a : Int) : Prop := s.inSystemMode = true ∨ inSystemZone s.cfg a = false

/-- The state a fault leaves: `running` false and the record written, all else as it was (R121). -/
def State.stoppedBy (s : State) (f : FaultRecord) : State := { s with running := false, fault := some f }

/-- The state in which an instruction's own meaning runs, after its cells were fetched at `PC` (R63, R65): its opcode is in
`IR`, `PC` stands after its last cell, its operand is in the latch. -/
def State.afterFetch (s : State) (i : Instr) : State :=
  { s with
    ir := s.cfg.opc.num i.op
    pc := wrap s.cfg.xlen (s.pc + i.cells)
    operandLatch := i.operand?.getD s.operandLatch }

/-- Phase 1 of a step in which the timer does not fire: one decrement in user mode, nothing in system mode (R62). -/
def State.tick (s : State) : State :=
  { s with countdown := if s.inSystemMode then s.countdown else wrap s.cfg.xlen (s.countdown - 1) }

/-- The memory `m` holds the words of `s` everywhere but at `a`, where it holds `v`. -/
def StoresOnly (s : State) (m : Memory) (a : Nat) (v : Int) : Prop :=
  readCell s.cfg.memInit m a = v ∧ ∀ b, b ≠ a → readCell s.cfg.memInit m b = s.cell b

/-- The registers that hold a word, the operand latch among them. -/
def State.registers (s : State) : List Int :=
  [s.pc, s.ac, s.x, s.y, s.ir, s.userSp, s.systemSp, s.countdown, s.operandLatch]

/-- What holds in every state between steps. -/
structure Inv (s : State) : Prop where
  /-- The configuration satisfies R5. -/
  config : s.cfg.WellFormed
  /-- Every register holds a word (R6). -/
  words : ∀ v ∈ s.registers, IsWord s.cfg.xlen v
  /-- The memory is in its canonical form. -/
  canonical : Memory.wf s.cfg.memInit s.mem
  /-- Every listed cell is a cell of the address space (R30) and holds a word (R6). -/
  fits : Memory.fits s.cfg s.mem
  /-- `interruptsEnabled = not inSystemMode` (R21). -/
  mask : s.interruptsEnabled = !s.inSystemMode
  /-- In user mode the system stack is empty (R22). -/
  systemStack : s.inSystemMode = false → s.systemSp = s.cfg.systemSpInit
  /-- `1 <= countdown <= TIMER_PERIOD` (R19). -/
  countdown : 1 ≤ s.countdown ∧ s.countdown ≤ s.cfg.timerPeriod
  /-- A core with a fault record is stopped (R20, R121). -/
  stopped : s.fault ≠ none → s.running = false

/-- `n` steps, stopping at the first fault or refusal: `core.run`, spelled over `step` (`core_run_eq_runFor`). -/
def runFor : Nat → State → Host.Outcome State Fault Refusal
  | 0, s => .next s
  | n + 1, s =>
    match step s with
    | .next t => runFor n t
    | .fault r => .fault r
    | .refused r => .refused r

/-- How many of the next `n` steps are user-steps: steps of a running core that begin in user mode (R135). -/
def userSteps : Nat → State → Nat
  | 0, _ => 0
  | n + 1, s =>
    (if s.running = true ∧ s.inSystemMode = false then 1 else 0) +
      match step s with
      | .next t => userSteps n t
      | .fault _ => 0
      | .refused _ => 0

end Sys2Proof.Machine
end

