-- ==== Sys2Proof/Certificates/Slice0/Obligations.lean ====
section
/-! DEFINITION. The statements for the provers. A meaning runs after its instruction's cells were fetched, so in every
statement about `exec`, `s.pc` is the address after the instruction and `s.ir` its opcode; `StepRunsDecodedInstruction`
says that a step runs it so. An equation `exec i s = .next { s with … }` is the instruction's completion, its result and
its whole frame: every field not named, memory included, is as it was. `encode m i` names an opcode through
`OPC`; the recalled default numbers (D2, log 2) stand in `WrittenOutWordsDecode` only. -/

open Sys2Proof Sys2Proof.Machine

/-! ### Encoding -/

/-- Under every injective opcode map, decoding the cells of an instruction, whatever cells follow, gives it back (R50, R52). -/
def Obligations.DecodeOfEncode : Prop :=
  ∀ (m : OpcMap) (i : Instr) (rest : List Int), m.Injective → decode m (encode m i ++ rest) = .ok (i, rest)

/-- Under every opcode map, cells that decode to an instruction are its encoding and what follows: no part of a cell is
ignored (R52). That the whole cell is compared is the spec's choice D26 (log 25). -/
def Obligations.EncodeOfDecode : Prop :=
  ∀ (m : OpcMap) (cells rest : List Int) (i : Instr), decode m cells = .ok (i, rest) → cells = encode m i ++ rest

/-- A cell is refused as an unknown opcode exactly when it is none of the 31 numbers, compared whole (R52, R54). That the whole
cell is compared is the spec's choice D26 (log 25). -/
def Obligations.UnknownOpcodeExactlyOutsideMap : Prop :=
  ∀ (m : OpcMap) (w : Int) (rest : List Int), decode m (w :: rest) = .error (.unknownOpcode w) ↔ w ∉ m.numbers

/-- The instructions of two cells are the eleven of R51; all others have one. -/
def Obligations.OperandClassIsTheEleven : Prop :=
  ∀ (m : OpcMap) (i : Instr),
    (encode m i).length =
      if i.op ∈ [Op.loadv, .loada, .loadind, .loadidxx, .loadidxy, .store, .put, .jump, .jumpifeq, .jumpifne, .call]
      then 2 else 1

/-- Words written out from the default map of R53, one or more of each family, and cells that are no instruction (R54). The
numbers are the spec's recalled defaults (log 2). -/
def Obligations.WrittenOutWordsDecode : Prop :=
  decode defaultOpc [1, 5] = .ok (.loadv 5, []) ∧ decode defaultOpc [7, 10, 50] = .ok (.store 10, [50]) ∧
  decode defaultOpc [10] = .ok (.addx, []) ∧ decode defaultOpc [23, 11] = .ok (.call 11, []) ∧
  decode defaultOpc [9, 1] = .ok (.put 1, []) ∧ decode defaultOpc [29] = .ok (.int, []) ∧
  decode defaultOpc [50] = .ok (.halt, []) ∧ decode defaultOpc [0] = .error (.unknownOpcode 0) ∧
  decode defaultOpc [31] = .error (.unknownOpcode 31) ∧ decode defaultOpc [257, 5] = .error (.unknownOpcode 257) ∧
  decode defaultOpc [-1] = .error (.unknownOpcode (-1))

/-! ### The step -/

/-- Where the cells at `PC` decode to `i` and the timer does not fire, the step is `i`'s own meaning, after the tick of
phase 1 and the fetch (R61 to R66). -/
def Obligations.StepRunsDecodedInstruction : Prop :=
  ∀ (s : State) (i : Instr) (rest : List Int), s.running = true → timerFires s = false →
    decode s.cfg.opc (codeCells s) = .ok (i, rest) → step s = exec i (s.tick.afterFetch i)

/-- Where the timer fires, whatever `interruptsEnabled` is (R124), the step delivers to `TIMER_VECTOR`, reloads the countdown
and runs the handler's first instruction (R62). That the step goes on after the delivery is the spec's choice D22 (log 21). -/
def Obligations.StepWithTimerRunsHandler : Prop :=
  ∀ (s d : State) (i : Instr) (rest : List Int), s.running = true → s.inSystemMode = false →
    s.word (s.countdown - 1) ≤ 0 →
    deliver s.cfg.timerVector { s with countdown := s.word (s.countdown - 1) } = .ok () d →
    decode s.cfg.opc (codeCells d) = .ok (i, rest) →
    step s = exec i (State.afterFetch { d with countdown := s.cfg.timerPeriod } i)

/-- A core that is not running does nothing, for ever (R60, R133). -/
def Obligations.StoppedCoreStaysAsItIs : Prop :=
  ∀ (s : State) (n : Nat), s.running = false → runFor n s = .next s

/-- Every step answers a next state, also one that faults and one of a stopped core. That a fault is answered as a next state
whose fault record is written is the model's choice (log 9), and that a stopped core answers its own state is deduced (log 10). The
spec says that the core stops only in the four ways of R69 and never waits. -/
def Obligations.StepAlwaysAnswersNext : Prop := ∀ s : State, ∃ t, step s = .next t

/-- A running core stops in a step exactly by a fault or by fetching END (R18, R69). That one of the faults is a rejected access
is the spec's choice D10 (log 8), that a fault is read from the fault record D20 (log 9). -/
def Obligations.StopsExactlyByFaultOrEnd : Prop :=
  ∀ s t : State, s.running = true → s.fault = none → step s = .next t →
    (t.running = false ↔ t.fault ≠ none ∨ t.ir = s.cfg.opc.halt)

/-- An opcode cell that is none of the 31 numbers stops the core (R66): whatever state `t` phase 1 of a step leaves, if the cell
at `PC` there is no opcode, the step ends with the cell and its address in the fault record, the cell in `IR` and `PC` one past
it, all else as in `t`; no operand is fetched. Where the timer fires, `t` is the state after the delivery, and that the step goes
on there is the spec's choice D22 (log 21); that the record is a register is D20 (log 9). -/
def Obligations.UnknownOpcodeStops : Prop :=
  ∀ s t : State, s.running = true → timerPhase s = .ok () t → inRange t.cfg t.pc = true →
    t.cell t.pc.toNat ∉ t.cfg.opc.numbers →
    step s = .next (State.stoppedBy { t with ir := t.cell t.pc.toNat, pc := t.word (t.pc + 1) }
      (.unknownOpcode (t.cell t.pc.toNat) t.pc))

/-- A fetch out of range stops the core (R63, R65, R68), whatever state `t` phase 1 of the step leaves. At the opcode, `IR` and
`PC` keep their values; at the operand, the opcode is in `IR` and `PC` one past it. That the memory rejects is the spec's choice
D10 (log 8), that a step goes on after a delivery D22 (log 21). -/
def Obligations.FetchOutOfRangeStops : Prop :=
  (∀ s t : State, s.running = true → timerPhase s = .ok () t → inRange t.cfg t.pc = false →
    step s = .next (t.stoppedBy (.memRangeFault t.pc))) ∧
  (∀ (s t : State) (o : Op), s.running = true → timerPhase s = .ok () t → inRange t.cfg t.pc = true →
    decodeOp t.cfg.opc (t.cell t.pc.toNat) = some o → o.format = .O → inRange t.cfg (t.word (t.pc + 1)) = false →
    step s = .next (State.stoppedBy { t with ir := t.cell t.pc.toNat, pc := t.word (t.pc + 1) }
      (.memRangeFault (t.word (t.pc + 1)))))

/-- The countdown over one step (R62): frozen in system mode and in a stopped core, decremented in user mode, reloaded where
the decremented value is zero or below and the delivery's two cells exist. -/
def Obligations.CountdownPerStep : Prop :=
  ∀ s t : State, step s = .next t →
    (s.running = false ∨ s.inSystemMode = true → t.countdown = s.countdown) ∧
    (s.running = true → s.inSystemMode = false → 0 < s.word (s.countdown - 1) →
      t.countdown = s.word (s.countdown - 1)) ∧
    (s.running = true → s.inSystemMode = false → s.word (s.countdown - 1) ≤ 0 →
      inRange s.cfg (s.word (s.systemSp - 1)) = true → inRange s.cfg (s.word (s.systemSp - 2)) = true →
      t.countdown = s.cfg.timerPeriod)

/-- Timer periodicity (R135). With `N` the period, after any number of steps the countdown is `N` less the user-steps made
since it was last `N`, modulo `N`, and the timer fires in a user-step exactly when that step completes a multiple of `N`.
From reset the countdown is `N` (`ResetValues`), so the k-th delivery is in the (k*N)-th user-step. -/
def Obligations.TimerPeriodicity : Prop :=
  ∀ (s : State) (n : Nat), Inv s → ∃ t, runFor n s = .next t ∧
    t.countdown = s.cfg.timerPeriod -
      (s.cfg.timerPeriod - s.countdown + userSteps n s) % s.cfg.timerPeriod ∧
    (t.inSystemMode = false →
      (timerFires t = true ↔
        (s.cfg.timerPeriod - s.countdown + userSteps n s + 1) % s.cfg.timerPeriod = 0))

/-! ### Invariants of every step -/

/-- Every step keeps the whole invariant: the configuration well formed (R5), every register and cell a word (R6), the memory
canonical and inside the address space, the mask opposite to the mode (R21), the system stack empty in user mode (R22), the
countdown between 1 and the period (R19), a faulted core stopped. That the memory rejects an address outside is the spec's choice
D10 (log 8). -/
def Obligations.StepKeepsInvariant : Prop := ∀ s t : State, Inv s → step s = .next t → Inv t

/-- Reset meets the invariant, under every well-formed configuration and with every canonical image loaded. That the countdown
resets to the period is the spec's choice D8 (log 5), that AC, X, Y and IR reset to `RESET_GPR` D7 (log 4), and the configuration
of `State.reset` holds the recalled defaults (logs 2, 3, 16) and the model's period 1000 (log 5). -/
def Obligations.ResetMeetsInvariant : Prop :=
  (∀ (p : Params) (image : Memory), p.WellFormed → Memory.wf p.memInit image → Memory.fits p image →
    Inv (State.resetWith p image)) ∧ Inv State.reset

/-- The values reset leaves (R25, R150, R151). Those of AC, X, Y, IR and of the countdown are the spec's own decisions D7 and D8
(logs 4 and 5), what an unloaded cell holds D9 (log 6), the two tops D6 (log 3). -/
def Obligations.ResetValues : Prop :=
  ∀ (p : Params) (image : Memory), ∀ s, s = State.resetWith p image →
    s.pc = 0 ∧ s.userSp = p.userSpInit ∧ s.systemSp = p.systemSpInit ∧ s.running = true ∧ s.interruptsEnabled = true ∧
    s.inSystemMode = false ∧ s.ac = p.resetGpr ∧ s.x = p.resetGpr ∧ s.y = p.resetGpr ∧ s.ir = p.resetGpr ∧
    s.countdown = p.timerPeriod ∧ s.fault = none ∧ s.output = [] ∧ s.cfg = p ∧
    ∀ a, s.cell a = ((image.find? fun c => c.1 == a).map Prod.snd).getD p.memInit

/-- Every step keeps the memory's canonical form, the model's (logs 6 and 7), from every state whose memory has it. -/
def Obligations.StepKeepsMemoryForm : Prop :=
  ∀ s t : State, Memory.wf s.cfg.memInit s.mem → step s = .next t → Memory.wf t.cfg.memInit t.mem

/-- The mask stays opposite to the mode in every step (R17, R21): the trap is masked exactly in system mode. -/
def Obligations.StepKeepsMaskOppositeToMode : Prop :=
  ∀ s t : State, s.interruptsEnabled = !s.inSystemMode → step s = .next t → t.interruptsEnabled = !t.inSystemMode

/-- No step changes the configuration (R27, R134), which the model carries in the state (log 14). -/
def Obligations.StepKeepsConfiguration : Prop := ∀ s t : State, step s = .next t → t.cfg = s.cfg

/-- A step emits at most one record, appended to the history, and only by PUT, with the word of `AC` (R67, R100). -/
def Obligations.OutputOnlyByPut : Prop :=
  ∀ s t : State, step s = .next t →
    t.output = s.output ∨ (t.ir = s.cfg.opc.put ∧ ∃ k, t.output = s.output ++ [⟨k, s.ac⟩])

/-- Only GET consumes random words, and it consumes exactly one (R107). How the words are held, and the count of them, is the
model's choice (log 11). -/
def Obligations.DrawsOnlyByGet : Prop :=
  ∀ s t : State, step s = .next t →
    (t.draws = s.draws ∧ t.randomNext = s.randomNext) ∨
    (t.ir = s.cfg.opc.get ∧ t.draws = s.draws + 1 ∧ t.randomNext = s.randomNext.tail)

/-! ### Modes -/

/-- System mode is entered only by the timer or by INT, with the trap masked; by INT, at the fixed entry (R16, R132). -/
def Obligations.SystemModeEnteredOnlyByDelivery : Prop :=
  ∀ s t : State, step s = .next t → s.inSystemMode = false → t.inSystemMode = true →
    t.interruptsEnabled = false ∧
    (timerFires s = true ∨
      (s.interruptsEnabled = true ∧ t.ir = s.cfg.opc.int ∧ t.pc = s.cfg.syscallVector))

/-- System mode is left only by IRET, which empties the system stack and enables the trap (R128, R132). -/
def Obligations.SystemModeLeftOnlyByIret : Prop :=
  ∀ s t : State, step s = .next t → s.inSystemMode = true → t.inSystemMode = false →
    t.ir = s.cfg.opc.iret ∧ t.interruptsEnabled = true ∧ t.systemSp = s.cfg.systemSpInit

/-- The stack pointers are banked (R13, R14): of the instructions' meanings, in user mode only INT's changes `SystemSP`, in
system mode only IRET's changes `UserSP`. That COPYTOSP and the stack instructions use the active stack pointer is the spec's
choice D12 (log 20), that IRET in user mode changes nothing D15 (log 18). -/
def Obligations.StackPointersAreBanked : Prop :=
  ∀ (i : Instr) (s t : State), exec i s = .next t →
    (s.inSystemMode = false → i ≠ .int → t.systemSp = s.systemSp) ∧
    (s.inSystemMode = true → i ≠ .iret → t.userSp = s.userSp)

/-- Only control transfers, INT and IRET write `PC` in their own meaning (R68). -/
def Obligations.OnlyControlTransfersWritePc : Prop :=
  ∀ (i : Instr) (s t : State), exec i s = .next t →
    i.op ∉ [Op.jump, .jumpifeq, .jumpifne, .call, .ret, .int, .iret] → t.pc = s.pc

/-! ### Memory and protection -/

/-- The memory port (R33): after a write, a read of that cell gives the word written, and a read of any other valid cell
what it gave before. -/
def Obligations.ReadGivesLatestWrite : Prop :=
  ∀ (s t : State) (a v : Int), Memory.wf s.cfg.memInit s.mem → memWrite a v s = .ok () t →
    memRead a t = .ok v t ∧ ∀ b, b ≠ a → inRange s.cfg b = true → memRead b t = .ok (s.cell b.toNat) t

/-- A checked access of user mode inside the system zone stops the core with the address, the opcode and the instruction's
address, before the access: no register and no cell changes (R38, R39). LOADIND checks the pointer cell's address and then
the pointer; that it checks both is the spec's choice D14 (log 17), the record's form D20 (log 9). -/
def Obligations.CheckedAccessFaultsInUserMode : Prop :=
  ∀ s : State, s.inSystemMode = false →
    (∀ a, inSystemZone s.cfg a = true →
      exec (.loada a) s = .next (s.stoppedBy (.protectionFault a s.ir (s.word (s.pc - 2)))) ∧
      exec (.store a) s = .next (s.stoppedBy (.protectionFault a s.ir (s.word (s.pc - 2)))) ∧
      exec (.loadind a) s = .next (s.stoppedBy (.protectionFault a s.ir (s.word (s.pc - 2))))) ∧
    (∀ b, inSystemZone s.cfg (s.word (b + s.x)) = true →
      exec (.loadidxx b) s = .next (s.stoppedBy (.protectionFault (s.word (b + s.x)) s.ir (s.word (s.pc - 2))))) ∧
    (∀ b, inSystemZone s.cfg (s.word (b + s.y)) = true →
      exec (.loadidxy b) s = .next (s.stoppedBy (.protectionFault (s.word (b + s.y)) s.ir (s.word (s.pc - 2))))) ∧
    (∀ a, inSystemZone s.cfg a = false → inRange s.cfg a = true → inSystemZone s.cfg (s.cell a.toNat) = true →
      exec (.loadind a) s = .next (s.stoppedBy (.protectionFault (s.cell a.toNat) s.ir (s.word (s.pc - 2)))))

/-- A data access that passes the checker and is out of range stops the core; no register and no cell changes (R34). That
the memory rejects is the spec's choice D10 (log 8), that LOADSPX uses the active stack pointer and is unchecked D12 and D13 (logs 20
and 19), that LOADIND checks both addresses D14 (log 17). -/
def Obligations.DataAccessOutOfRangeStops : Prop :=
  ∀ s : State,
    (∀ a, Allowed s a → inRange s.cfg a = false →
      exec (.loada a) s = .next (s.stoppedBy (.memRangeFault a)) ∧
      exec (.store a) s = .next (s.stoppedBy (.memRangeFault a)) ∧
      exec (.loadind a) s = .next (s.stoppedBy (.memRangeFault a))) ∧
    (∀ b, Allowed s (s.word (b + s.x)) → inRange s.cfg (s.word (b + s.x)) = false →
      exec (.loadidxx b) s = .next (s.stoppedBy (.memRangeFault (s.word (b + s.x))))) ∧
    (∀ b, Allowed s (s.word (b + s.y)) → inRange s.cfg (s.word (b + s.y)) = false →
      exec (.loadidxy b) s = .next (s.stoppedBy (.memRangeFault (s.word (b + s.y))))) ∧
    (∀ a, Allowed s a → inRange s.cfg a = true → Allowed s (s.cell a.toNat) → inRange s.cfg (s.cell a.toNat) = false →
      exec (.loadind a) s = .next (s.stoppedBy (.memRangeFault (s.cell a.toNat)))) ∧
    (inRange s.cfg (s.word (activeSp s + s.x)) = false →
      exec .loadspx s = .next (s.stoppedBy (.memRangeFault (s.word (activeSp s + s.x)))))

/-- In user mode the meaning of no instruction but PUSH, CALL and INT changes a cell of the system zone (R38 to R40,
R156). Which accesses are unchecked is the spec's choice D13 (log 19). -/
def Obligations.UserModeWritesSystemZoneOnlyByStackOrTrap : Prop :=
  ∀ (i : Instr) (s t : State) (a : Nat), s.inSystemMode = false → i.op ∉ [Op.push, .call, .int] →
    exec i s = .next t → s.cfg.userSize ≤ a → (a : Int) < s.cfg.systemSize → t.cell a = s.cell a

/-- In user mode the meaning of no instruction but LOADSPX, POP and RET depends on the contents of the system zone (R38 to R40,
R156): two states that differ only in memory, and not in the user zone, go to states that differ only in memory, and not in the
user zone. This is about the meaning alone: the fetch before it is unchecked and may take cells of the system zone (R40 a). Which
accesses are unchecked is the spec's choice D13 (log 19), that LOADIND checks both of its addresses D14 (log 17), that IRET does
nothing in user mode D15 (log 18). -/
def Obligations.UserModeMeaningIgnoresSystemZone : Prop :=
  ∀ (i : Instr) (s t : State) (m : Memory), s.inSystemMode = false → i.op ∉ [Op.loadspx, .pop, .ret] →
    Memory.wf s.cfg.memInit s.mem → Memory.wf s.cfg.memInit m →
    (∀ a : Nat, (a : Int) < s.cfg.userSize → readCell s.cfg.memInit m a = s.cell a) → exec i s = .next t →
    ∃ m', exec i { s with mem := m } = .next { t with mem := m' } ∧
      ∀ a : Nat, (a : Int) < s.cfg.userSize → readCell s.cfg.memInit m' a = t.cell a

/-! ### Loads and the store -/

/-- LOADV (R70). -/
def Obligations.LoadvLoadsItsOperand : Prop :=
  ∀ (s : State) (v : Int) (m : OpcMap),
    exec (.loadv v) s = .next { s with ac := v } ∧ encode m (.loadv v) = [m.loadv, v]

/-- LOADA, LOADIDXX and LOADIDXY read the cell at their address, the index added, where the checker lets it pass and the cell
exists (R71, R73, R74). -/
def Obligations.CheckedLoadsReadTheirAddress : Prop :=
  (∀ (s : State) (a : Int), Allowed s a → inRange s.cfg a = true →
    exec (.loada a) s = .next { s with ac := s.cell a.toNat }) ∧
  (∀ (s : State) (b : Int), Allowed s (s.word (b + s.x)) → inRange s.cfg (s.word (b + s.x)) = true →
    exec (.loadidxx b) s = .next { s with ac := s.cell (s.word (b + s.x)).toNat }) ∧
  (∀ (s : State) (b : Int), Allowed s (s.word (b + s.y)) → inRange s.cfg (s.word (b + s.y)) = true →
    exec (.loadidxy b) s = .next { s with ac := s.cell (s.word (b + s.y)).toNat })

/-- LOADIND reads the cell that the pointer cell points to (R72); both addresses must pass the checker (D14, log 17). -/
def Obligations.LoadindReadsThroughPointer : Prop :=
  ∀ (s : State) (a : Int), Allowed s a → inRange s.cfg a = true → Allowed s (s.cell a.toNat) →
    inRange s.cfg (s.cell a.toNat) = true →
    exec (.loadind a) s = .next { s with ac := s.cell (s.cell a.toNat).toNat }

/-- LOADSPX reads the cell at the active stack pointer plus `X`, unchecked (R75); which stack pointer is the spec's choice D12
(log 20), that it is unchecked D13 (log 19). -/
def Obligations.LoadspxReadsStackRelative : Prop :=
  ∀ s : State,
    (s.inSystemMode = false → inRange s.cfg (s.word (s.userSp + s.x)) = true →
      exec .loadspx s = .next { s with ac := s.cell (s.word (s.userSp + s.x)).toNat }) ∧
    (s.inSystemMode = true → inRange s.cfg (s.word (s.systemSp + s.x)) = true →
      exec .loadspx s = .next { s with ac := s.cell (s.word (s.systemSp + s.x)).toNat })

/-- STORE stores `AC` at its operand and changes nothing else: no register, no other cell (R76). -/
def Obligations.StoreWritesOnlyItsCell : Prop :=
  ∀ (s : State) (a : Int), Memory.wf s.cfg.memInit s.mem → Allowed s a → inRange s.cfg a = true →
    ∃ m, exec (.store a) s = .next { s with mem := m } ∧ StoresOnly s m a.toNat s.ac

/-! ### Arithmetic and register transfer -/

/-- ADDX, ADDY, SUBX, SUBY (R80 to R83): the exact sum or difference of the signed words, wrapped. -/
def Obligations.ArithmeticWrapsIntoAc : Prop :=
  ∀ (s : State) (m : OpcMap),
    (exec .addx s = .next { s with ac := s.word (s.ac + s.x) } ∧ encode m .addx = [m.addx]) ∧
    (exec .addy s = .next { s with ac := s.word (s.ac + s.y) } ∧ encode m .addy = [m.addy]) ∧
    (exec .subx s = .next { s with ac := s.word (s.ac - s.x) } ∧ encode m .subx = [m.subx]) ∧
    (exec .suby s = .next { s with ac := s.word (s.ac - s.y) } ∧ encode m .suby = [m.suby])

/-- INCX and DECX (R105, R106), at every width; the corner cases that the two rules name are those of width 32. -/
def Obligations.IncxDecxWrap : Prop :=
  ∀ (s : State) (m : OpcMap),
    (exec .incx s = .next { s with x := s.word (s.x + 1) } ∧ encode m .incx = [m.incx]) ∧
    (exec .decx s = .next { s with x := s.word (s.x - 1) } ∧ encode m .decx = [m.decx])

/-- The copies between `AC`, `X` and `Y` (R84 to R87). -/
def Obligations.CopiesMoveOneRegister : Prop :=
  ∀ (s : State) (m : OpcMap),
    (exec .copytox s = .next { s with x := s.ac } ∧ encode m .copytox = [m.copytox]) ∧
    (exec .copyfromx s = .next { s with ac := s.x } ∧ encode m .copyfromx = [m.copyfromx]) ∧
    (exec .copytoy s = .next { s with y := s.ac } ∧ encode m .copytoy = [m.copytoy]) ∧
    (exec .copyfromy s = .next { s with ac := s.y } ∧ encode m .copyfromy = [m.copyfromy])

/-- The copies between `AC` and the active stack pointer (R88, R89); that it is the active one is the spec's choice D12
(log 20). -/
def Obligations.CopiesUseActiveStackPointer : Prop :=
  ∀ s : State,
    (s.inSystemMode = false → exec .copytosp s = .next { s with userSp := s.ac } ∧
      exec .copyfromsp s = .next { s with ac := s.userSp }) ∧
    (s.inSystemMode = true → exec .copytosp s = .next { s with systemSp := s.ac } ∧
      exec .copyfromsp s = .next { s with ac := s.systemSp })

/-! ### Control transfer and the stack -/

/-- JUMP, JUMPIFEQ, JUMPIFNE (R92 to R94); `s.pc` is already `a + 2`. -/
def Obligations.JumpsWritePcByAc : Prop :=
  ∀ (s : State) (a : Int) (m : OpcMap),
    (exec (.jump a) s = .next { s with pc := a } ∧ encode m (.jump a) = [m.jump, a]) ∧
    (exec (.jumpifeq a) s = .next { s with pc := if s.ac = 0 then a else s.pc } ∧
      encode m (.jumpifeq a) = [m.jumpifeq, a]) ∧
    (exec (.jumpifne a) s = .next { s with pc := if s.ac = 0 then s.pc else a } ∧
      encode m (.jumpifne a) = [m.jumpifne, a])

/-- CALL and PUSH store at the active stack pointer less one and leave it there; CALL stores the return address and jumps
(R90, R95, R97). Nothing else changes. That the stack is the active one is the spec's choice D12 (log 20). -/
def Obligations.CallAndPushStoreOnActiveStack : Prop :=
  ∀ s : State, Memory.wf s.cfg.memInit s.mem →
    (s.inSystemMode = false → inRange s.cfg (s.word (s.userSp - 1)) = true →
      (∀ target, ∃ m, exec (.call target) s = .next { s with userSp := s.word (s.userSp - 1), pc := target, mem := m } ∧
        StoresOnly s m (s.word (s.userSp - 1)).toNat s.pc) ∧
      ∃ m, exec .push s = .next { s with userSp := s.word (s.userSp - 1), mem := m } ∧
        StoresOnly s m (s.word (s.userSp - 1)).toNat s.ac) ∧
    (s.inSystemMode = true → inRange s.cfg (s.word (s.systemSp - 1)) = true →
      (∀ target, ∃ m, exec (.call target) s = .next { s with systemSp := s.word (s.systemSp - 1), pc := target, mem := m } ∧
        StoresOnly s m (s.word (s.systemSp - 1)).toNat s.pc) ∧
      ∃ m, exec .push s = .next { s with systemSp := s.word (s.systemSp - 1), mem := m } ∧
        StoresOnly s m (s.word (s.systemSp - 1)).toNat s.ac)

/-- RET and POP read at the active stack pointer and increment it; RET keeps the mode (R91, R96, R98). That
the stack is the active one is the spec's choice D12 (log 20). -/
def Obligations.RetAndPopReadActiveStack : Prop :=
  ∀ s : State,
    (s.inSystemMode = false → inRange s.cfg s.userSp = true →
      exec .ret s = .next { s with pc := s.cell s.userSp.toNat, userSp := s.word (s.userSp + 1) } ∧
      exec .pop s = .next { s with ac := s.cell s.userSp.toNat, userSp := s.word (s.userSp + 1) }) ∧
    (s.inSystemMode = true → inRange s.cfg s.systemSp = true →
      exec .ret s = .next { s with pc := s.cell s.systemSp.toNat, systemSp := s.word (s.systemSp + 1) } ∧
      exec .pop s = .next { s with ac := s.cell s.systemSp.toNat, systemSp := s.word (s.systemSp + 1) })

/-- A stack access out of range stops the core (R90, R91): a push keeps the decremented pointer and stores nothing, a pop
leaves the pointer; neither `PC` nor `AC` changes. That the memory rejects is D10 (log 8), what is kept D30 (log 22), that
the stack is the active one D12 (log 20). -/
def Obligations.StackAccessOutOfRangeStops : Prop :=
  ∀ s : State,
    (s.inSystemMode = false → inRange s.cfg (s.word (s.userSp - 1)) = false →
      exec .push s = .next (State.stoppedBy { s with userSp := s.word (s.userSp - 1) }
        (.memRangeFault (s.word (s.userSp - 1)))) ∧
      ∀ a, exec (.call a) s =
        .next (State.stoppedBy { s with userSp := s.word (s.userSp - 1) }
          (.memRangeFault (s.word (s.userSp - 1))))) ∧
    (s.inSystemMode = true → inRange s.cfg (s.word (s.systemSp - 1)) = false →
      exec .push s = .next (State.stoppedBy { s with systemSp := s.word (s.systemSp - 1) }
        (.memRangeFault (s.word (s.systemSp - 1)))) ∧
      ∀ a, exec (.call a) s =
        .next (State.stoppedBy { s with systemSp := s.word (s.systemSp - 1) }
          (.memRangeFault (s.word (s.systemSp - 1))))) ∧
    (inRange s.cfg (activeSp s) = false →
      exec .pop s = .next (s.stoppedBy (.memRangeFault (activeSp s))) ∧
      exec .ret s = .next (s.stoppedBy (.memRangeFault (activeSp s))))

/-- Stack discipline (R91): after a PUSH, a POP in any state with the same memory, mode and stack pointers leaves the active
stack pointer as it was before the PUSH and `AC` equal to its value then. The stack pointer holds a word, as every register does
(`StepKeepsInvariant`). That the stack is the active one in system mode is the spec's choice D12 (log 20). -/
def Obligations.PushThenPopRestores : Prop :=
  ∀ s t u : State, Memory.wf s.cfg.memInit s.mem → IsWord s.cfg.xlen (activeSp s) →
    inRange s.cfg (s.word (activeSp s - 1)) = true → exec .push s = .next t →
    u.mem = t.mem → u.cfg = t.cfg → u.inSystemMode = t.inSystemMode → u.userSp = t.userSp → u.systemSp = t.systemSp →
    exec .pop u = .next { u with ac := s.ac, userSp := s.userSp, systemSp := s.systemSp }

/-- Call and return (R96): after a CALL, a RET in any state with the same memory, mode and stack pointers resumes at the
address after the CALL, the stack pointers as before it. The stack pointer holds a word, as every register does
(`StepKeepsInvariant`). That the stack is the active one in system mode is the spec's choice D12 (log 20). -/
def Obligations.CallThenRetResumes : Prop :=
  ∀ (s t u : State) (a : Int), Memory.wf s.cfg.memInit s.mem → IsWord s.cfg.xlen (activeSp s) →
    inRange s.cfg (s.word (activeSp s - 1)) = true → exec (.call a) s = .next t →
    u.mem = t.mem → u.cfg = t.cfg → u.inSystemMode = t.inSystemMode → u.userSp = t.userSp → u.systemSp = t.systemSp →
    exec .ret u = .next { u with pc := s.pc, userSp := s.userSp, systemSp := s.systemSp }

/-! ### Output, the random source and END -/

/-- PUT emits one record of `AC`, of the kind its operand selects, and nothing for any other operand (R101); the last is the
spec's choice D17 (log 16). -/
def Obligations.PutEmitsSelectedKind : Prop :=
  ∀ (s : State) (port : Int),
    (port = s.cfg.portInt → exec (.put port) s = .next { s with output := s.output ++ [⟨.int, s.ac⟩] }) ∧
    (port ≠ s.cfg.portInt → port = s.cfg.portChar →
      exec (.put port) s = .next { s with output := s.output ++ [⟨.char, s.ac⟩] }) ∧
    (port ≠ s.cfg.portInt → port ≠ s.cfg.portChar → exec (.put port) s = .next s)

/-- GET writes to `AC` a word within the bounds and consumes one draw, whatever the random source supplies; a word within the
bounds that the source has fixed is the word written (R107). How the source is held is the model's choice (log 11). -/
def Obligations.GetDrawsWithinBounds : Prop :=
  ∀ s : State, s.cfg.randMin ≤ s.cfg.randMax →
    ∃ v : Int, s.cfg.randMin ≤ v ∧ v ≤ s.cfg.randMax ∧
      exec .get s = .next { s with ac := v, randomNext := s.randomNext.tail, draws := s.draws + 1 } ∧
      ∀ w, s.randomNext.head? = some w → s.cfg.randMin ≤ w → w ≤ s.cfg.randMax → v = w

/-- END (R64): its meaning clears `running` and nothing else; whatever state `t` phase 1 of a step leaves, if the cell at `PC`
there is END's number, the step ends with `running` false, that number in `IR` and `PC` one past the cell, all else as in `t`,
in either mode. Where the timer fires, `t` is the state after the delivery, and that the step goes on there is the spec's choice
D22 (log 21). -/
def Obligations.EndHaltsTheCore : Prop :=
  (∀ s : State, exec .halt s = .next { s with running := false }) ∧ (∀ m : OpcMap, encode m .halt = [m.halt]) ∧
  ∀ s t : State, s.running = true → timerPhase s = .ok () t → inRange t.cfg t.pc = true →
    t.cell t.pc.toNat = t.cfg.opc.halt →
    step s = .next { t with running := false, ir := t.cfg.opc.halt, pc := t.word (t.pc + 1) }

/-! ### Delivery and return -/

/-- `Deliver` (R126): `PC` goes to the cell below `SystemSP`, `UserSP` to the cell below that, `SystemSP` comes down by two, `PC`
is the target, the mode is system, the trap masked; nothing else changes, in the registers or in memory. The width is that
of R5, at least 2. -/
def Obligations.DeliverSavesPcAndUserSp : Prop :=
  ∀ (s : State) (target : Int), s.cfg.WidthOk → Memory.wf s.cfg.memInit s.mem →
    inRange s.cfg (s.word (s.systemSp - 1)) = true → inRange s.cfg (s.word (s.systemSp - 2)) = true →
    ∃ m, deliver target s = .ok () { s with
        systemSp := s.word (s.systemSp - 2), pc := target, inSystemMode := true, interruptsEnabled := false, mem := m } ∧
      readCell s.cfg.memInit m (s.word (s.systemSp - 1)).toNat = s.pc ∧
      readCell s.cfg.memInit m (s.word (s.systemSp - 2)).toNat = s.userSp ∧
      ∀ b, b ≠ (s.word (s.systemSp - 1)).toNat → b ≠ (s.word (s.systemSp - 2)).toNat →
        readCell s.cfg.memInit m b = s.cell b

/-- INT with the trap enabled delivers to `SYSCALL_VECTOR`; the saved `PC` is the address after the INT (R108, C6), which is
the spec's choice D21 (log 18). -/
def Obligations.IntDeliversToSyscallVector : Prop :=
  ∀ s : State, s.cfg.WidthOk → Memory.wf s.cfg.memInit s.mem → s.interruptsEnabled = true →
    inRange s.cfg (s.word (s.systemSp - 1)) = true → inRange s.cfg (s.word (s.systemSp - 2)) = true →
    ∃ m, exec .int s = .next { s with
        systemSp := s.word (s.systemSp - 2), pc := s.cfg.syscallVector, inSystemMode := true, interruptsEnabled := false,
        mem := m } ∧
      readCell s.cfg.memInit m (s.word (s.systemSp - 1)).toNat = s.pc ∧
      readCell s.cfg.memInit m (s.word (s.systemSp - 2)).toNat = s.userSp ∧
      ∀ b, b ≠ (s.word (s.systemSp - 1)).toNat → b ≠ (s.word (s.systemSp - 2)).toNat →
        readCell s.cfg.memInit m b = s.cell b

/-- INT while masked and IRET in user mode do nothing (R108, R109); both are the spec's choices, D16 and D15 (log 18). -/
def Obligations.MaskedIntAndUserIretDoNothing : Prop :=
  (∀ s : State, s.interruptsEnabled = false → exec .int s = .next s) ∧
  (∀ s : State, s.inSystemMode = false → exec .iret s = .next s)

/-- IRET in system mode pops `UserSP` then `PC` from where `SystemSP` points, resets `SystemSP`, and goes to user mode with the
trap enabled; `AC`, `X`, `Y` and memory stay (R109). -/
def Obligations.IretReturnsToUserMode : Prop :=
  ∀ s : State, s.inSystemMode = true → inRange s.cfg s.systemSp = true → inRange s.cfg (s.word (s.systemSp + 1)) = true →
    exec .iret s = .next { s with
      userSp := s.cell s.systemSp.toNat, pc := s.cell (s.word (s.systemSp + 1)).toNat, systemSp := s.cfg.systemSpInit,
      inSystemMode := false, interruptsEnabled := true }

/-- IRET with `SystemSP` out of range stops the core in system mode; at the second pop, `UserSP` and the incremented `SystemSP`
are kept (R109). That the memory rejects is D10 (log 8), what is kept D30 (log 22). -/
def Obligations.IretOutOfRangeStops : Prop :=
  ∀ s : State, s.inSystemMode = true →
    (inRange s.cfg s.systemSp = false → exec .iret s = .next (s.stoppedBy (.memRangeFault s.systemSp))) ∧
    (inRange s.cfg s.systemSp = true → inRange s.cfg (s.word (s.systemSp + 1)) = false →
      exec .iret s = .next (State.stoppedBy
        { s with userSp := s.cell s.systemSp.toNat, systemSp := s.word (s.systemSp + 1) }
        (.memRangeFault (s.word (s.systemSp + 1)))))

/-- Interrupt round trip (R130): a delivery from `s`, a handler that reaches IRET in a state `h` with the system stack balanced
and the two saved cells unmodified, and `PC` and `UserSP` are those of `s`, the system stack is empty, the mode user. -/
def Obligations.InterruptRoundTrip : Prop :=
  ∀ (s d h : State) (target : Int), s.cfg.WidthOk → Memory.wf s.cfg.memInit s.mem → deliver target s = .ok () d →
    h.cfg = s.cfg → h.inSystemMode = true → h.systemSp = d.systemSp →
    h.cell (s.word (s.systemSp - 1)).toNat = d.cell (s.word (s.systemSp - 1)).toNat →
    h.cell (s.word (s.systemSp - 2)).toNat = d.cell (s.word (s.systemSp - 2)).toNat →
    exec .iret h = .next { h with
      pc := s.pc, userSp := s.userSp, systemSp := s.cfg.systemSpInit, inSystemMode := false, interruptsEnabled := true }

/-- A delivery whose first or second cell does not exist stops the core (R34, R126), in the timer phase of a step and in INT:
`SystemSP` keeps its decrements, a word already stored stays, and mode, mask, `PC` and `UserSP` keep their values. No run reaches
such a state (R22). That the memory rejects is D10 (log 8), what is kept D30 (log 22). -/
def Obligations.DeliveryOutOfRangeStops : Prop :=
  ∀ s : State,
    (inRange s.cfg (s.word (s.systemSp - 1)) = false →
      (s.interruptsEnabled = true → exec .int s = .next (State.stoppedBy
        { s with systemSp := s.word (s.systemSp - 1) } (.memRangeFault (s.word (s.systemSp - 1))))) ∧
      (s.running = true → timerFires s = true → step s = .next (State.stoppedBy
        { s with systemSp := s.word (s.systemSp - 1), countdown := s.word (s.countdown - 1) }
          (.memRangeFault (s.word (s.systemSp - 1)))))) ∧
    (Memory.wf s.cfg.memInit s.mem → inRange s.cfg (s.word (s.systemSp - 1)) = true →
      inRange s.cfg (s.word (s.systemSp - 2)) = false →
      ∃ m, StoresOnly s m (s.word (s.systemSp - 1)).toNat s.pc ∧
        (s.interruptsEnabled = true → exec .int s = .next (State.stoppedBy
          { s with systemSp := s.word (s.systemSp - 2), mem := m } (.memRangeFault (s.word (s.systemSp - 2))))) ∧
        (s.running = true → timerFires s = true → step s = .next (State.stoppedBy
          { s with systemSp := s.word (s.systemSp - 2), countdown := s.word (s.countdown - 1), mem := m }
            (.memRangeFault (s.word (s.systemSp - 2))))))
end

