-- ==== Sys2Proof/Laws/Decode.lean ====
section
/-! SUPPORT. What the decoder finds: the small lemmas of `decodeOp` and of the two tables behind it. -/

namespace Sys2Proof

/-- The decoder tries every opcode. -/
theorem mem_searchOrder (o : Op) : o ∈ Op.searchOrder := by cases o <;> decide

/-- The opcode the decoder answers has the cell's number. -/
theorem decodeOp_num {m : OpcMap} {w : Int} {o : Op} (h : decodeOp m w = some o) : m.num o = w := by
  simpa using List.find?_some h

/-- The decoder answers none only where no opcode has the cell's number (R54). -/
theorem decodeOp_eq_none {m : OpcMap} {w : Int} : decodeOp m w = none ↔ ∀ o, m.num o ≠ w := by
  simp [decodeOp, mem_searchOrder]

/-- The instruction an opcode makes has that opcode. -/
@[simp] theorem assemble_op (v : Int) (o : Op) : (o.assemble v).op = o := by cases o <;> rfl

/-- The 31 numbers of R53 are the numbers of the 31 opcodes. -/
theorem num_mem_numbers (m : OpcMap) (o : Op) : m.num o ∈ m.numbers := by cases o <;> simp [OpcMap.num, OpcMap.numbers]

end Sys2Proof
end

