-- ==== Sys2Proof/Laws/Memory.lean ====
section
/-! SUPPORT. The laws of the memory list: what a read gives after a write, and that a write keeps the canonical form. -/

namespace Sys2Proof.Machine

variable {fill : Int}

theorem readCell_consCell_same (a : Nat) (v : Int) (m : Memory) (h : readCell fill m a = fill) :
    readCell fill (consCell fill a v m) a = v := by
  unfold consCell
  split
  · simp_all
  · simp [readCell]

theorem readCell_consCell_other {a b : Nat} (v : Int) (m : Memory) (h : a ≠ b) :
    readCell fill (consCell fill a v m) b = readCell fill m b := by
  unfold consCell
  split
  · rfl
  · simp [readCell, h]

/-- A cell below every listed address reads as `fill`. -/
theorem readCell_of_lt {m : Memory} {a : Nat} (h : ∀ c ∈ m, a < c.1) : readCell fill m a = fill := by
  induction m with
  | nil => rfl
  | cons c rest ih =>
    have hc : a < c.1 := h c (by simp)
    have : c.1 ≠ a := by omega
    simp only [readCell, this, if_false]
    exact ih fun d hd => h d (by simp [hd])

/-- A read of the cell just written gives the word written (R33). -/
theorem readCell_writeCell_same {m : Memory} (hm : m.wf fill) (a : Nat) (v : Int) : readCell fill (writeCell fill m a v) a = v := by
  induction m with
  | nil => exact readCell_consCell_same a v [] rfl
  | cons c rest ih =>
    have ho : (∀ d ∈ rest, c.1 < d.1) ∧ (rest.map Prod.fst).Pairwise (· < ·) := by simpa using hm.1
    simp only [writeCell]
    split
    · rename_i hlt
      have : c.1 ≠ a := by omega
      simpa only [readCell, this, if_false] using ih ⟨ho.2, fun d hd => hm.2 d (by simp [hd])⟩
    · split
      · rename_i _ heq
        exact readCell_consCell_same a v rest (readCell_of_lt fun d hd => heq ▸ ho.1 d hd)
      · refine readCell_consCell_same a v _ (readCell_of_lt fun d hd => ?_)
        rcases List.mem_cons.1 hd with rfl | hd
        · omega
        · have := ho.1 d hd
          omega

/-- A write leaves every other cell alone (R33). -/
theorem readCell_writeCell_other (m : Memory) {a b : Nat} (v : Int) (h : a ≠ b) :
    readCell fill (writeCell fill m a v) b = readCell fill m b := by
  induction m with
  | nil => exact readCell_consCell_other v [] h
  | cons c rest ih =>
    simp only [writeCell]
    split
    · simp [readCell, ih]
    · split
      · rename_i _ heq
        have : c.1 ≠ b := by omega
        rw [readCell_consCell_other v rest h]
        simp [readCell, this]
      · exact readCell_consCell_other v _ h

theorem mem_consCell {a : Nat} {v : Int} {m : Memory} {c : Cell} (h : c ∈ consCell fill a v m) :
    (c = (a, v) ∧ v ≠ fill) ∨ c ∈ m := by
  unfold consCell at h
  split at h
  · exact .inr h
  · rcases List.mem_cons.1 h with rfl | h
    · exact .inl ⟨rfl, by assumption⟩
    · exact .inr h

/-- What a write can list: the cell written, with a word that is not `fill`, or a cell that was listed. -/
theorem mem_writeCell {m : Memory} {a : Nat} {v : Int} {c : Cell} (h : c ∈ writeCell fill m a v) :
    (c = (a, v) ∧ v ≠ fill) ∨ c ∈ m := by
  induction m with
  | nil => exact mem_consCell h
  | cons d rest ih =>
    simp only [writeCell] at h
    split at h
    · rcases List.mem_cons.1 h with rfl | h
      · exact .inr (by simp)
      · exact (ih h).imp_right fun h => by simp [h]
    · split at h
      · exact (mem_consCell h).imp_right fun h => by simp [h]
      · exact mem_consCell h

theorem consCell_wf {a : Nat} {v : Int} {m : Memory} (hm : m.wf fill) (h : ∀ c ∈ m, a < c.1) : (consCell fill a v m).wf fill := by
  unfold consCell
  split
  · exact hm
  · refine ⟨?_, ?_⟩
    · simpa using ⟨fun b w hb => h (b, w) hb, hm.1⟩
    · intro c hc
      rcases List.mem_cons.1 hc with rfl | hc
      · assumption
      · exact hm.2 c hc

/-- Every write keeps the canonical form. -/
theorem writeCell_wf {m : Memory} (hm : m.wf fill) (a : Nat) (v : Int) : (writeCell fill m a v).wf fill := by
  induction m with
  | nil => exact consCell_wf hm (by simp)
  | cons c rest ih =>
    have ho : (∀ d ∈ rest, c.1 < d.1) ∧ (rest.map Prod.fst).Pairwise (· < ·) := by simpa using hm.1
    have hrest : Memory.wf fill rest := ⟨ho.2, fun d hd => hm.2 d (by simp [hd])⟩
    simp only [writeCell]
    split
    · rename_i hlt
      refine ⟨?_, ?_⟩
      · have : ∀ d ∈ writeCell fill rest a v, c.1 < d.1 := fun d hd => by
          rcases mem_writeCell hd with ⟨rfl, _⟩ | hd
          · exact hlt
          · exact ho.1 d hd
        simpa using ⟨fun b w hb => this (b, w) hb, (ih hrest).1⟩
      · intro d hd
        rcases List.mem_cons.1 hd with rfl | hd
        · exact hm.2 _ (by simp)
        · exact (ih hrest).2 d hd
    · split
      · rename_i _ heq
        exact consCell_wf hrest fun d hd => heq ▸ ho.1 d hd
      · refine consCell_wf hm fun d hd => ?_
        rcases List.mem_cons.1 hd with rfl | hd
        · omega
        · have := ho.1 d hd
          omega

/-- A write of a word at an address of the configuration keeps every listed cell one of the configuration's. -/
theorem writeCell_fits {p : Params} {m : Memory} (hm : m.fits p) {a : Nat} {v : Int} (ha : (a : Int) < p.systemSize)
    (hv : IsWord p.xlen v) : (writeCell fill m a v).fits p := by
  intro c hc
  rcases mem_writeCell hc with ⟨rfl, _⟩ | hc
  · exact ⟨ha, hv⟩
  · exact hm c hc

/-- Where every listed cell holds a word and so does `fill`, every cell reads as a word. -/
theorem isWord_readCell {p : Params} {m : Memory} (hm : m.fits p) (hf : IsWord p.xlen fill) (a : Nat) :
    IsWord p.xlen (readCell fill m a) := by
  induction m with
  | nil => exact hf
  | cons c rest ih =>
    unfold readCell
    split
    · exact (hm c (by simp)).2
    · exact ih fun d hd => hm d (by simp [hd])

end Sys2Proof.Machine
end

