-- ==== Sys2Proof/Laws/State.lean ====
section
/-! SUPPORT. What each update of the state does to each field, one lemma per field per update, and to the word of a cell:
simp works through states with these and never unfolds an update. -/

namespace Sys2Proof.Machine.State

section
variable (s : State) (v : Int)

@[simp] theorem setPc_cfg : (s.setPc v).cfg = s.cfg := rfl
@[simp] theorem setPc_pc : (s.setPc v).pc = v := rfl
@[simp] theorem setPc_ac : (s.setPc v).ac = s.ac := rfl
@[simp] theorem setPc_x : (s.setPc v).x = s.x := rfl
@[simp] theorem setPc_y : (s.setPc v).y = s.y := rfl
@[simp] theorem setPc_ir : (s.setPc v).ir = s.ir := rfl
@[simp] theorem setPc_userSp : (s.setPc v).userSp = s.userSp := rfl
@[simp] theorem setPc_systemSp : (s.setPc v).systemSp = s.systemSp := rfl
@[simp] theorem setPc_inSystemMode : (s.setPc v).inSystemMode = s.inSystemMode := rfl
@[simp] theorem setPc_interruptsEnabled : (s.setPc v).interruptsEnabled = s.interruptsEnabled := rfl
@[simp] theorem setPc_running : (s.setPc v).running = s.running := rfl
@[simp] theorem setPc_countdown : (s.setPc v).countdown = s.countdown := rfl
@[simp] theorem setPc_fault : (s.setPc v).fault = s.fault := rfl
@[simp] theorem setPc_operandLatch : (s.setPc v).operandLatch = s.operandLatch := rfl
@[simp] theorem setPc_mem : (s.setPc v).mem = s.mem := rfl
@[simp] theorem setPc_output : (s.setPc v).output = s.output := rfl
@[simp] theorem setPc_randomNext : (s.setPc v).randomNext = s.randomNext := rfl
@[simp] theorem setPc_draws : (s.setPc v).draws = s.draws := rfl
@[simp] theorem setPc_cell (a : Nat) : (s.setPc v).cell a = s.cell a := rfl
end

section
variable (s : State) (v : Int)

@[simp] theorem setAc_cfg : (s.setAc v).cfg = s.cfg := rfl
@[simp] theorem setAc_pc : (s.setAc v).pc = s.pc := rfl
@[simp] theorem setAc_ac : (s.setAc v).ac = v := rfl
@[simp] theorem setAc_x : (s.setAc v).x = s.x := rfl
@[simp] theorem setAc_y : (s.setAc v).y = s.y := rfl
@[simp] theorem setAc_ir : (s.setAc v).ir = s.ir := rfl
@[simp] theorem setAc_userSp : (s.setAc v).userSp = s.userSp := rfl
@[simp] theorem setAc_systemSp : (s.setAc v).systemSp = s.systemSp := rfl
@[simp] theorem setAc_inSystemMode : (s.setAc v).inSystemMode = s.inSystemMode := rfl
@[simp] theorem setAc_interruptsEnabled : (s.setAc v).interruptsEnabled = s.interruptsEnabled := rfl
@[simp] theorem setAc_running : (s.setAc v).running = s.running := rfl
@[simp] theorem setAc_countdown : (s.setAc v).countdown = s.countdown := rfl
@[simp] theorem setAc_fault : (s.setAc v).fault = s.fault := rfl
@[simp] theorem setAc_operandLatch : (s.setAc v).operandLatch = s.operandLatch := rfl
@[simp] theorem setAc_mem : (s.setAc v).mem = s.mem := rfl
@[simp] theorem setAc_output : (s.setAc v).output = s.output := rfl
@[simp] theorem setAc_randomNext : (s.setAc v).randomNext = s.randomNext := rfl
@[simp] theorem setAc_draws : (s.setAc v).draws = s.draws := rfl
@[simp] theorem setAc_cell (a : Nat) : (s.setAc v).cell a = s.cell a := rfl
end

section
variable (s : State) (v : Int)

@[simp] theorem setX_cfg : (s.setX v).cfg = s.cfg := rfl
@[simp] theorem setX_pc : (s.setX v).pc = s.pc := rfl
@[simp] theorem setX_ac : (s.setX v).ac = s.ac := rfl
@[simp] theorem setX_x : (s.setX v).x = v := rfl
@[simp] theorem setX_y : (s.setX v).y = s.y := rfl
@[simp] theorem setX_ir : (s.setX v).ir = s.ir := rfl
@[simp] theorem setX_userSp : (s.setX v).userSp = s.userSp := rfl
@[simp] theorem setX_systemSp : (s.setX v).systemSp = s.systemSp := rfl
@[simp] theorem setX_inSystemMode : (s.setX v).inSystemMode = s.inSystemMode := rfl
@[simp] theorem setX_interruptsEnabled : (s.setX v).interruptsEnabled = s.interruptsEnabled := rfl
@[simp] theorem setX_running : (s.setX v).running = s.running := rfl
@[simp] theorem setX_countdown : (s.setX v).countdown = s.countdown := rfl
@[simp] theorem setX_fault : (s.setX v).fault = s.fault := rfl
@[simp] theorem setX_operandLatch : (s.setX v).operandLatch = s.operandLatch := rfl
@[simp] theorem setX_mem : (s.setX v).mem = s.mem := rfl
@[simp] theorem setX_output : (s.setX v).output = s.output := rfl
@[simp] theorem setX_randomNext : (s.setX v).randomNext = s.randomNext := rfl
@[simp] theorem setX_draws : (s.setX v).draws = s.draws := rfl
@[simp] theorem setX_cell (a : Nat) : (s.setX v).cell a = s.cell a := rfl
end

section
variable (s : State) (v : Int)

@[simp] theorem setY_cfg : (s.setY v).cfg = s.cfg := rfl
@[simp] theorem setY_pc : (s.setY v).pc = s.pc := rfl
@[simp] theorem setY_ac : (s.setY v).ac = s.ac := rfl
@[simp] theorem setY_x : (s.setY v).x = s.x := rfl
@[simp] theorem setY_y : (s.setY v).y = v := rfl
@[simp] theorem setY_ir : (s.setY v).ir = s.ir := rfl
@[simp] theorem setY_userSp : (s.setY v).userSp = s.userSp := rfl
@[simp] theorem setY_systemSp : (s.setY v).systemSp = s.systemSp := rfl
@[simp] theorem setY_inSystemMode : (s.setY v).inSystemMode = s.inSystemMode := rfl
@[simp] theorem setY_interruptsEnabled : (s.setY v).interruptsEnabled = s.interruptsEnabled := rfl
@[simp] theorem setY_running : (s.setY v).running = s.running := rfl
@[simp] theorem setY_countdown : (s.setY v).countdown = s.countdown := rfl
@[simp] theorem setY_fault : (s.setY v).fault = s.fault := rfl
@[simp] theorem setY_operandLatch : (s.setY v).operandLatch = s.operandLatch := rfl
@[simp] theorem setY_mem : (s.setY v).mem = s.mem := rfl
@[simp] theorem setY_output : (s.setY v).output = s.output := rfl
@[simp] theorem setY_randomNext : (s.setY v).randomNext = s.randomNext := rfl
@[simp] theorem setY_draws : (s.setY v).draws = s.draws := rfl
@[simp] theorem setY_cell (a : Nat) : (s.setY v).cell a = s.cell a := rfl
end

section
variable (s : State) (v : Int)

@[simp] theorem setIr_cfg : (s.setIr v).cfg = s.cfg := rfl
@[simp] theorem setIr_pc : (s.setIr v).pc = s.pc := rfl
@[simp] theorem setIr_ac : (s.setIr v).ac = s.ac := rfl
@[simp] theorem setIr_x : (s.setIr v).x = s.x := rfl
@[simp] theorem setIr_y : (s.setIr v).y = s.y := rfl
@[simp] theorem setIr_ir : (s.setIr v).ir = v := rfl
@[simp] theorem setIr_userSp : (s.setIr v).userSp = s.userSp := rfl
@[simp] theorem setIr_systemSp : (s.setIr v).systemSp = s.systemSp := rfl
@[simp] theorem setIr_inSystemMode : (s.setIr v).inSystemMode = s.inSystemMode := rfl
@[simp] theorem setIr_interruptsEnabled : (s.setIr v).interruptsEnabled = s.interruptsEnabled := rfl
@[simp] theorem setIr_running : (s.setIr v).running = s.running := rfl
@[simp] theorem setIr_countdown : (s.setIr v).countdown = s.countdown := rfl
@[simp] theorem setIr_fault : (s.setIr v).fault = s.fault := rfl
@[simp] theorem setIr_operandLatch : (s.setIr v).operandLatch = s.operandLatch := rfl
@[simp] theorem setIr_mem : (s.setIr v).mem = s.mem := rfl
@[simp] theorem setIr_output : (s.setIr v).output = s.output := rfl
@[simp] theorem setIr_randomNext : (s.setIr v).randomNext = s.randomNext := rfl
@[simp] theorem setIr_draws : (s.setIr v).draws = s.draws := rfl
@[simp] theorem setIr_cell (a : Nat) : (s.setIr v).cell a = s.cell a := rfl
end

section
variable (s : State) (v : Int)

@[simp] theorem setUserSp_cfg : (s.setUserSp v).cfg = s.cfg := rfl
@[simp] theorem setUserSp_pc : (s.setUserSp v).pc = s.pc := rfl
@[simp] theorem setUserSp_ac : (s.setUserSp v).ac = s.ac := rfl
@[simp] theorem setUserSp_x : (s.setUserSp v).x = s.x := rfl
@[simp] theorem setUserSp_y : (s.setUserSp v).y = s.y := rfl
@[simp] theorem setUserSp_ir : (s.setUserSp v).ir = s.ir := rfl
@[simp] theorem setUserSp_userSp : (s.setUserSp v).userSp = v := rfl
@[simp] theorem setUserSp_systemSp : (s.setUserSp v).systemSp = s.systemSp := rfl
@[simp] theorem setUserSp_inSystemMode : (s.setUserSp v).inSystemMode = s.inSystemMode := rfl
@[simp] theorem setUserSp_interruptsEnabled : (s.setUserSp v).interruptsEnabled = s.interruptsEnabled := rfl
@[simp] theorem setUserSp_running : (s.setUserSp v).running = s.running := rfl
@[simp] theorem setUserSp_countdown : (s.setUserSp v).countdown = s.countdown := rfl
@[simp] theorem setUserSp_fault : (s.setUserSp v).fault = s.fault := rfl
@[simp] theorem setUserSp_operandLatch : (s.setUserSp v).operandLatch = s.operandLatch := rfl
@[simp] theorem setUserSp_mem : (s.setUserSp v).mem = s.mem := rfl
@[simp] theorem setUserSp_output : (s.setUserSp v).output = s.output := rfl
@[simp] theorem setUserSp_randomNext : (s.setUserSp v).randomNext = s.randomNext := rfl
@[simp] theorem setUserSp_draws : (s.setUserSp v).draws = s.draws := rfl
@[simp] theorem setUserSp_cell (a : Nat) : (s.setUserSp v).cell a = s.cell a := rfl
end

section
variable (s : State) (v : Int)

@[simp] theorem setSystemSp_cfg : (s.setSystemSp v).cfg = s.cfg := rfl
@[simp] theorem setSystemSp_pc : (s.setSystemSp v).pc = s.pc := rfl
@[simp] theorem setSystemSp_ac : (s.setSystemSp v).ac = s.ac := rfl
@[simp] theorem setSystemSp_x : (s.setSystemSp v).x = s.x := rfl
@[simp] theorem setSystemSp_y : (s.setSystemSp v).y = s.y := rfl
@[simp] theorem setSystemSp_ir : (s.setSystemSp v).ir = s.ir := rfl
@[simp] theorem setSystemSp_userSp : (s.setSystemSp v).userSp = s.userSp := rfl
@[simp] theorem setSystemSp_systemSp : (s.setSystemSp v).systemSp = v := rfl
@[simp] theorem setSystemSp_inSystemMode : (s.setSystemSp v).inSystemMode = s.inSystemMode := rfl
@[simp] theorem setSystemSp_interruptsEnabled : (s.setSystemSp v).interruptsEnabled = s.interruptsEnabled := rfl
@[simp] theorem setSystemSp_running : (s.setSystemSp v).running = s.running := rfl
@[simp] theorem setSystemSp_countdown : (s.setSystemSp v).countdown = s.countdown := rfl
@[simp] theorem setSystemSp_fault : (s.setSystemSp v).fault = s.fault := rfl
@[simp] theorem setSystemSp_operandLatch : (s.setSystemSp v).operandLatch = s.operandLatch := rfl
@[simp] theorem setSystemSp_mem : (s.setSystemSp v).mem = s.mem := rfl
@[simp] theorem setSystemSp_output : (s.setSystemSp v).output = s.output := rfl
@[simp] theorem setSystemSp_randomNext : (s.setSystemSp v).randomNext = s.randomNext := rfl
@[simp] theorem setSystemSp_draws : (s.setSystemSp v).draws = s.draws := rfl
@[simp] theorem setSystemSp_cell (a : Nat) : (s.setSystemSp v).cell a = s.cell a := rfl
end

section
variable (s : State) (b e : Bool)

@[simp] theorem setMode_cfg : (s.setMode b e).cfg = s.cfg := rfl
@[simp] theorem setMode_pc : (s.setMode b e).pc = s.pc := rfl
@[simp] theorem setMode_ac : (s.setMode b e).ac = s.ac := rfl
@[simp] theorem setMode_x : (s.setMode b e).x = s.x := rfl
@[simp] theorem setMode_y : (s.setMode b e).y = s.y := rfl
@[simp] theorem setMode_ir : (s.setMode b e).ir = s.ir := rfl
@[simp] theorem setMode_userSp : (s.setMode b e).userSp = s.userSp := rfl
@[simp] theorem setMode_systemSp : (s.setMode b e).systemSp = s.systemSp := rfl
@[simp] theorem setMode_inSystemMode : (s.setMode b e).inSystemMode = b := rfl
@[simp] theorem setMode_interruptsEnabled : (s.setMode b e).interruptsEnabled = e := rfl
@[simp] theorem setMode_running : (s.setMode b e).running = s.running := rfl
@[simp] theorem setMode_countdown : (s.setMode b e).countdown = s.countdown := rfl
@[simp] theorem setMode_fault : (s.setMode b e).fault = s.fault := rfl
@[simp] theorem setMode_operandLatch : (s.setMode b e).operandLatch = s.operandLatch := rfl
@[simp] theorem setMode_mem : (s.setMode b e).mem = s.mem := rfl
@[simp] theorem setMode_output : (s.setMode b e).output = s.output := rfl
@[simp] theorem setMode_randomNext : (s.setMode b e).randomNext = s.randomNext := rfl
@[simp] theorem setMode_draws : (s.setMode b e).draws = s.draws := rfl
@[simp] theorem setMode_cell (a : Nat) : (s.setMode b e).cell a = s.cell a := rfl
end

section
variable (s : State) (v : Int)

@[simp] theorem setCountdown_cfg : (s.setCountdown v).cfg = s.cfg := rfl
@[simp] theorem setCountdown_pc : (s.setCountdown v).pc = s.pc := rfl
@[simp] theorem setCountdown_ac : (s.setCountdown v).ac = s.ac := rfl
@[simp] theorem setCountdown_x : (s.setCountdown v).x = s.x := rfl
@[simp] theorem setCountdown_y : (s.setCountdown v).y = s.y := rfl
@[simp] theorem setCountdown_ir : (s.setCountdown v).ir = s.ir := rfl
@[simp] theorem setCountdown_userSp : (s.setCountdown v).userSp = s.userSp := rfl
@[simp] theorem setCountdown_systemSp : (s.setCountdown v).systemSp = s.systemSp := rfl
@[simp] theorem setCountdown_inSystemMode : (s.setCountdown v).inSystemMode = s.inSystemMode := rfl
@[simp] theorem setCountdown_interruptsEnabled : (s.setCountdown v).interruptsEnabled = s.interruptsEnabled := rfl
@[simp] theorem setCountdown_running : (s.setCountdown v).running = s.running := rfl
@[simp] theorem setCountdown_countdown : (s.setCountdown v).countdown = v := rfl
@[simp] theorem setCountdown_fault : (s.setCountdown v).fault = s.fault := rfl
@[simp] theorem setCountdown_operandLatch : (s.setCountdown v).operandLatch = s.operandLatch := rfl
@[simp] theorem setCountdown_mem : (s.setCountdown v).mem = s.mem := rfl
@[simp] theorem setCountdown_output : (s.setCountdown v).output = s.output := rfl
@[simp] theorem setCountdown_randomNext : (s.setCountdown v).randomNext = s.randomNext := rfl
@[simp] theorem setCountdown_draws : (s.setCountdown v).draws = s.draws := rfl
@[simp] theorem setCountdown_cell (a : Nat) : (s.setCountdown v).cell a = s.cell a := rfl
end

section
variable (s : State) (v : Int)

@[simp] theorem setOperandLatch_cfg : (s.setOperandLatch v).cfg = s.cfg := rfl
@[simp] theorem setOperandLatch_pc : (s.setOperandLatch v).pc = s.pc := rfl
@[simp] theorem setOperandLatch_ac : (s.setOperandLatch v).ac = s.ac := rfl
@[simp] theorem setOperandLatch_x : (s.setOperandLatch v).x = s.x := rfl
@[simp] theorem setOperandLatch_y : (s.setOperandLatch v).y = s.y := rfl
@[simp] theorem setOperandLatch_ir : (s.setOperandLatch v).ir = s.ir := rfl
@[simp] theorem setOperandLatch_userSp : (s.setOperandLatch v).userSp = s.userSp := rfl
@[simp] theorem setOperandLatch_systemSp : (s.setOperandLatch v).systemSp = s.systemSp := rfl
@[simp] theorem setOperandLatch_inSystemMode : (s.setOperandLatch v).inSystemMode = s.inSystemMode := rfl
@[simp] theorem setOperandLatch_interruptsEnabled : (s.setOperandLatch v).interruptsEnabled = s.interruptsEnabled := rfl
@[simp] theorem setOperandLatch_running : (s.setOperandLatch v).running = s.running := rfl
@[simp] theorem setOperandLatch_countdown : (s.setOperandLatch v).countdown = s.countdown := rfl
@[simp] theorem setOperandLatch_fault : (s.setOperandLatch v).fault = s.fault := rfl
@[simp] theorem setOperandLatch_operandLatch : (s.setOperandLatch v).operandLatch = v := rfl
@[simp] theorem setOperandLatch_mem : (s.setOperandLatch v).mem = s.mem := rfl
@[simp] theorem setOperandLatch_output : (s.setOperandLatch v).output = s.output := rfl
@[simp] theorem setOperandLatch_randomNext : (s.setOperandLatch v).randomNext = s.randomNext := rfl
@[simp] theorem setOperandLatch_draws : (s.setOperandLatch v).draws = s.draws := rfl
@[simp] theorem setOperandLatch_cell (a : Nat) : (s.setOperandLatch v).cell a = s.cell a := rfl
end

section
variable (s : State) (m : Memory)

@[simp] theorem setMem_cfg : (s.setMem m).cfg = s.cfg := rfl
@[simp] theorem setMem_pc : (s.setMem m).pc = s.pc := rfl
@[simp] theorem setMem_ac : (s.setMem m).ac = s.ac := rfl
@[simp] theorem setMem_x : (s.setMem m).x = s.x := rfl
@[simp] theorem setMem_y : (s.setMem m).y = s.y := rfl
@[simp] theorem setMem_ir : (s.setMem m).ir = s.ir := rfl
@[simp] theorem setMem_userSp : (s.setMem m).userSp = s.userSp := rfl
@[simp] theorem setMem_systemSp : (s.setMem m).systemSp = s.systemSp := rfl
@[simp] theorem setMem_inSystemMode : (s.setMem m).inSystemMode = s.inSystemMode := rfl
@[simp] theorem setMem_interruptsEnabled : (s.setMem m).interruptsEnabled = s.interruptsEnabled := rfl
@[simp] theorem setMem_running : (s.setMem m).running = s.running := rfl
@[simp] theorem setMem_countdown : (s.setMem m).countdown = s.countdown := rfl
@[simp] theorem setMem_fault : (s.setMem m).fault = s.fault := rfl
@[simp] theorem setMem_operandLatch : (s.setMem m).operandLatch = s.operandLatch := rfl
@[simp] theorem setMem_mem : (s.setMem m).mem = m := rfl
@[simp] theorem setMem_output : (s.setMem m).output = s.output := rfl
@[simp] theorem setMem_randomNext : (s.setMem m).randomNext = s.randomNext := rfl
@[simp] theorem setMem_draws : (s.setMem m).draws = s.draws := rfl
@[simp] theorem setMem_cell (a : Nat) : (s.setMem m).cell a = readCell s.cfg.memInit m a := rfl
end

section
variable (s : State)

@[simp] theorem halt_cfg : s.halt.cfg = s.cfg := rfl
@[simp] theorem halt_pc : s.halt.pc = s.pc := rfl
@[simp] theorem halt_ac : s.halt.ac = s.ac := rfl
@[simp] theorem halt_x : s.halt.x = s.x := rfl
@[simp] theorem halt_y : s.halt.y = s.y := rfl
@[simp] theorem halt_ir : s.halt.ir = s.ir := rfl
@[simp] theorem halt_userSp : s.halt.userSp = s.userSp := rfl
@[simp] theorem halt_systemSp : s.halt.systemSp = s.systemSp := rfl
@[simp] theorem halt_inSystemMode : s.halt.inSystemMode = s.inSystemMode := rfl
@[simp] theorem halt_interruptsEnabled : s.halt.interruptsEnabled = s.interruptsEnabled := rfl
@[simp] theorem halt_running : s.halt.running = false := rfl
@[simp] theorem halt_countdown : s.halt.countdown = s.countdown := rfl
@[simp] theorem halt_fault : s.halt.fault = s.fault := rfl
@[simp] theorem halt_operandLatch : s.halt.operandLatch = s.operandLatch := rfl
@[simp] theorem halt_mem : s.halt.mem = s.mem := rfl
@[simp] theorem halt_output : s.halt.output = s.output := rfl
@[simp] theorem halt_randomNext : s.halt.randomNext = s.randomNext := rfl
@[simp] theorem halt_draws : s.halt.draws = s.draws := rfl
@[simp] theorem halt_cell (a : Nat) : s.halt.cell a = s.cell a := rfl
end

section
variable (s : State) (f : FaultRecord)

@[simp] theorem setFault_cfg : (s.setFault f).cfg = s.cfg := rfl
@[simp] theorem setFault_pc : (s.setFault f).pc = s.pc := rfl
@[simp] theorem setFault_ac : (s.setFault f).ac = s.ac := rfl
@[simp] theorem setFault_x : (s.setFault f).x = s.x := rfl
@[simp] theorem setFault_y : (s.setFault f).y = s.y := rfl
@[simp] theorem setFault_ir : (s.setFault f).ir = s.ir := rfl
@[simp] theorem setFault_userSp : (s.setFault f).userSp = s.userSp := rfl
@[simp] theorem setFault_systemSp : (s.setFault f).systemSp = s.systemSp := rfl
@[simp] theorem setFault_inSystemMode : (s.setFault f).inSystemMode = s.inSystemMode := rfl
@[simp] theorem setFault_interruptsEnabled : (s.setFault f).interruptsEnabled = s.interruptsEnabled := rfl
@[simp] theorem setFault_running : (s.setFault f).running = s.running := rfl
@[simp] theorem setFault_countdown : (s.setFault f).countdown = s.countdown := rfl
@[simp] theorem setFault_fault : (s.setFault f).fault = some f := rfl
@[simp] theorem setFault_operandLatch : (s.setFault f).operandLatch = s.operandLatch := rfl
@[simp] theorem setFault_mem : (s.setFault f).mem = s.mem := rfl
@[simp] theorem setFault_output : (s.setFault f).output = s.output := rfl
@[simp] theorem setFault_randomNext : (s.setFault f).randomNext = s.randomNext := rfl
@[simp] theorem setFault_draws : (s.setFault f).draws = s.draws := rfl
@[simp] theorem setFault_cell (a : Nat) : (s.setFault f).cell a = s.cell a := rfl
end

section
variable (s : State) (r : OutRecord)

@[simp] theorem emit_cfg : (s.emit r).cfg = s.cfg := rfl
@[simp] theorem emit_pc : (s.emit r).pc = s.pc := rfl
@[simp] theorem emit_ac : (s.emit r).ac = s.ac := rfl
@[simp] theorem emit_x : (s.emit r).x = s.x := rfl
@[simp] theorem emit_y : (s.emit r).y = s.y := rfl
@[simp] theorem emit_ir : (s.emit r).ir = s.ir := rfl
@[simp] theorem emit_userSp : (s.emit r).userSp = s.userSp := rfl
@[simp] theorem emit_systemSp : (s.emit r).systemSp = s.systemSp := rfl
@[simp] theorem emit_inSystemMode : (s.emit r).inSystemMode = s.inSystemMode := rfl
@[simp] theorem emit_interruptsEnabled : (s.emit r).interruptsEnabled = s.interruptsEnabled := rfl
@[simp] theorem emit_running : (s.emit r).running = s.running := rfl
@[simp] theorem emit_countdown : (s.emit r).countdown = s.countdown := rfl
@[simp] theorem emit_fault : (s.emit r).fault = s.fault := rfl
@[simp] theorem emit_operandLatch : (s.emit r).operandLatch = s.operandLatch := rfl
@[simp] theorem emit_mem : (s.emit r).mem = s.mem := rfl
@[simp] theorem emit_output : (s.emit r).output = s.output ++ [r] := rfl
@[simp] theorem emit_randomNext : (s.emit r).randomNext = s.randomNext := rfl
@[simp] theorem emit_draws : (s.emit r).draws = s.draws := rfl
@[simp] theorem emit_cell (a : Nat) : (s.emit r).cell a = s.cell a := rfl
end

section
variable (s : State) (l : List Int)

@[simp] theorem consumeDraw_cfg : (s.consumeDraw l).cfg = s.cfg := rfl
@[simp] theorem consumeDraw_pc : (s.consumeDraw l).pc = s.pc := rfl
@[simp] theorem consumeDraw_ac : (s.consumeDraw l).ac = s.ac := rfl
@[simp] theorem consumeDraw_x : (s.consumeDraw l).x = s.x := rfl
@[simp] theorem consumeDraw_y : (s.consumeDraw l).y = s.y := rfl
@[simp] theorem consumeDraw_ir : (s.consumeDraw l).ir = s.ir := rfl
@[simp] theorem consumeDraw_userSp : (s.consumeDraw l).userSp = s.userSp := rfl
@[simp] theorem consumeDraw_systemSp : (s.consumeDraw l).systemSp = s.systemSp := rfl
@[simp] theorem consumeDraw_inSystemMode : (s.consumeDraw l).inSystemMode = s.inSystemMode := rfl
@[simp] theorem consumeDraw_interruptsEnabled : (s.consumeDraw l).interruptsEnabled = s.interruptsEnabled := rfl
@[simp] theorem consumeDraw_running : (s.consumeDraw l).running = s.running := rfl
@[simp] theorem consumeDraw_countdown : (s.consumeDraw l).countdown = s.countdown := rfl
@[simp] theorem consumeDraw_fault : (s.consumeDraw l).fault = s.fault := rfl
@[simp] theorem consumeDraw_operandLatch : (s.consumeDraw l).operandLatch = s.operandLatch := rfl
@[simp] theorem consumeDraw_mem : (s.consumeDraw l).mem = s.mem := rfl
@[simp] theorem consumeDraw_output : (s.consumeDraw l).output = s.output := rfl
@[simp] theorem consumeDraw_randomNext : (s.consumeDraw l).randomNext = l := rfl
@[simp] theorem consumeDraw_draws : (s.consumeDraw l).draws = s.draws + 1 := rfl
@[simp] theorem consumeDraw_cell (a : Nat) : (s.consumeDraw l).cell a = s.cell a := rfl
end

end Sys2Proof.Machine.State
end

