-- ==== Sys2Proof/Laws/Word.lean ====
section
/-! SUPPORT. The laws of `wrap` (spec/00_scope.md R6): its result is a word, a word is unchanged by it, and an intermediate
`wrap` in a sum is of no consequence. -/

namespace Sys2Proof

variable (n : Nat) (a b : Int)

/-- `wrap` is the balanced remainder modulo `2^XLEN`. -/
theorem wrap_eq_bmod : wrap n a = Int.bmod a (2 ^ n) := by cases n <;> simp [wrap]

/-- Every result of `wrap` is a word. -/
theorem isWord_wrap : IsWord n (wrap n a) := by
  have lo := Int.le_bmod (x := a) (m := 2 ^ n) (by positivity)
  have hi := Int.bmod_lt (x := a) (m := 2 ^ n) (by positivity)
  rw [wrap_eq_bmod]
  unfold IsWord
  cases n with
  | zero => simp at lo hi ⊢; try omega
  | succ k =>
    have : (2 : Int) ^ (k + 1) = 2 * 2 ^ k := by ring
    push_cast at lo hi
    rw [this] at lo hi ⊢
    omega

/-- `wrap` changes no word. -/
theorem wrap_of_isWord {n : Nat} {a : Int} (h : IsWord n a) : wrap n a = a :=
  (wrap_eq_bmod n a).trans <| Int.bmod_eq_of_le_mul_two (by have := h.1; push_cast; omega) (by have := h.2; push_cast; omega)

@[simp] theorem wrap_wrap : wrap n (wrap n a) = wrap n a := by simp [wrap_eq_bmod]

@[simp] theorem wrap_wrap_add : wrap n (wrap n a + b) = wrap n (a + b) := by simp [wrap_eq_bmod]

@[simp] theorem wrap_wrap_sub : wrap n (wrap n a - b) = wrap n (a - b) := by simp [wrap_eq_bmod]

/-- Two successive increments. -/
theorem wrap_add_one_add_one : wrap n (wrap n (a + 1) + 1) = wrap n (a + 2) := by
  rw [wrap_wrap_add, show a + 1 + 1 = a + 2 by ring]

/-- Two successive decrements. -/
theorem wrap_sub_one_sub_one : wrap n (wrap n (a - 1) - 1) = wrap n (a - 2) := by
  rw [wrap_wrap_sub, show a - 1 - 1 = a - 2 by ring]

/-- An increment undoes a decrement. -/
theorem wrap_sub_one_add_one {n : Nat} {a : Int} (h : IsWord n a) : wrap n (wrap n (a - 1) + 1) = a := by
  rw [wrap_wrap_add, show a - 1 + 1 = a by ring, wrap_of_isWord h]

/-- Below a word above the least one, the decrement is exact. -/
theorem wrap_sub_one {n : Nat} {a : Int} (h : IsWord n a) (hp : 0 < a) : wrap n (a - 1) = a - 1 :=
  wrap_of_isWord ⟨by have := h.1; omega, by have := h.2; omega⟩

/-- Two neighbouring addresses are two addresses. -/
theorem wrap_sub_one_ne {n : Nat} (hn : 2 ≤ n) (a : Int) : wrap n (a - 1) ≠ wrap n (a - 2) := by
  intro e
  have h : Int.bmod (a - 1 - (a - 2)) (2 ^ n) = 0 := by
    have : wrap n (wrap n (a - 1) - wrap n (a - 2)) = wrap n (a - 1 - (a - 2)) := by
      simp [wrap_eq_bmod]
    rw [e, sub_self] at this
    simpa [wrap_eq_bmod] using this.symm
  have h4 : (4 : Int) ≤ 2 ^ n := by
    have : (2 : Int) ^ 2 ≤ 2 ^ n := pow_le_pow_right₀ (by norm_num) hn
    omega
  rw [show a - 1 - (a - 2) = 1 by ring, Int.bmod_eq_of_le_mul_two (by push_cast; omega) (by push_cast; omega)] at h
  omega

end Sys2Proof
end

