-- ==== Sys2Proof/Laws/Ops.lean ====
section
/-! SUPPORT. For each shared operation, what it can do, said once: where it goes on, with which value and state, and where
it stops. -/

namespace Sys2Proof.Machine

@[simp] theorem andThen_ok {α β : Type} (a : α) (s : State) (f : α → State → Ran β) : (Ran.ok a s).andThen f = f a s := rfl

@[simp] theorem andThen_stopped {α β : Type} (s : State) (f : α → State → Ran β) :
    (Ran.stopped s : Ran α).andThen f = .stopped s := rfl

@[simp] theorem outcome_ok (u : Unit) (s : State) : (Ran.ok u s).outcome = .next s := rfl

@[simp] theorem outcome_stopped (s : State) : (Ran.stopped s : Ran Unit).outcome = .next s := rfl

/-- A piece of a step that ends goes on through both of its parts, or stops in one of them. -/
theorem andThen_eq_ok {α β : Type} {r : Ran α} {f : α → State → Ran β} {b : β} {t : State} :
    r.andThen f = .ok b t ↔ ∃ a s, r = .ok a s ∧ f a s = .ok b t := by
  cases r <;> simp

theorem andThen_eq_stopped {α β : Type} {r : Ran α} {f : α → State → Ran β} {t : State} :
    r.andThen f = .stopped t ↔ r = .stopped t ∨ ∃ a s, r = .ok a s ∧ f a s = .stopped t := by
  cases r <;> simp

/-- Every piece of a step ends in a next state: the core never stops in any other way (R69). -/
theorem outcome_eq_next {r : Ran Unit} {t : State} : r.outcome = .next t ↔ r = .ok () t ∨ r = .stopped t := by
  cases r <;> simp

@[simp] theorem raise_eq {α : Type} (f : FaultRecord) (s : State) :
    (raise f s : Ran α) = .stopped (s.halt.setFault f) := rfl

theorem inRange_iff {p : Params} {a : Int} : inRange p a = true ↔ 0 ≤ a ∧ a < p.systemSize := by
  simp [inRange]

theorem inSystemZone_iff {p : Params} {a : Int} :
    inSystemZone p a = true ↔ p.userSize ≤ a ∧ a < p.systemSize := by
  simp [inSystemZone]

/-- An address in range is an address of the memory. -/
theorem toNat_lt_of_inRange {p : Params} {a : Int} (h : inRange p a = true) : (a.toNat : Int) < p.systemSize := by
  have := inRange_iff.1 h
  omega

theorem memRead_eq_ok {a v : Int} {s t : State} :
    memRead a s = .ok v t ↔ inRange s.cfg a = true ∧ v = s.cell a.toNat ∧ t = s := by
  unfold memRead
  split <;> rename_i h <;> simp [h, eq_comm (a := v), eq_comm (a := t)]

theorem memRead_eq_stopped {a : Int} {s t : State} :
    memRead a s = .stopped t ↔ inRange s.cfg a = false ∧ t = s.halt.setFault (.memRangeFault a) := by
  unfold memRead
  split <;> rename_i h <;> simp [h, eq_comm (a := t)]

theorem memWrite_eq_ok {u : Unit} {a v : Int} {s t : State} :
    memWrite a v s = .ok u t ↔ inRange s.cfg a = true ∧ t = s.setMem (writeCell s.cfg.memInit s.mem a.toNat v) := by
  unfold memWrite
  split <;> rename_i h <;> simp [h, eq_comm (a := t)]

theorem memWrite_eq_stopped {a v : Int} {s t : State} :
    memWrite a v s = .stopped t ↔ inRange s.cfg a = false ∧ t = s.halt.setFault (.memRangeFault a) := by
  unfold memWrite
  split <;> rename_i h <;> simp [h, eq_comm (a := t)]

theorem protCheck_eq_ok {u : Unit} {a : Int} {s t : State} :
    protCheck a s = .ok u t ↔ (s.inSystemMode = true ∨ inSystemZone s.cfg a = false) ∧ t = s := by
  unfold protCheck
  cases s.inSystemMode <;> cases inSystemZone s.cfg a <;> simp [eq_comm]

theorem protCheck_eq_stopped {a : Int} {s t : State} :
    protCheck a s = .stopped t ↔ (s.inSystemMode = false ∧ inSystemZone s.cfg a = true) ∧
      t = s.halt.setFault (.protectionFault a s.ir (instructionAddress s)) := by
  unfold protCheck
  cases s.inSystemMode <;> cases inSystemZone s.cfg a <;> simp [eq_comm]

theorem readChecked_eq_ok {a v : Int} {s t : State} :
    readChecked a s = .ok v t ↔
      (s.inSystemMode = true ∨ inSystemZone s.cfg a = false) ∧ inRange s.cfg a = true ∧ v = s.cell a.toNat ∧ t = s := by
  simp only [readChecked, andThen_eq_ok, protCheck_eq_ok, memRead_eq_ok]
  constructor
  · rintro ⟨_, _, ⟨h, rfl⟩, h'⟩
    exact ⟨h, h'⟩
  · rintro ⟨h, h'⟩
    exact ⟨(), s, ⟨h, rfl⟩, h'⟩

/-- Where a checked read stops: the check before the range, and the two exclude each other (R131). -/
theorem readChecked_eq_stopped {a : Int} {s t : State} :
    readChecked a s = .stopped t ↔
      ((s.inSystemMode = false ∧ inSystemZone s.cfg a = true) ∧
        t = s.halt.setFault (.protectionFault a s.ir (instructionAddress s))) ∨
      ((s.inSystemMode = true ∨ inSystemZone s.cfg a = false) ∧ inRange s.cfg a = false ∧
        t = s.halt.setFault (.memRangeFault a)) := by
  simp only [readChecked, andThen_eq_stopped, protCheck_eq_stopped, protCheck_eq_ok, memRead_eq_stopped]
  constructor
  · rintro (h | ⟨_, _, ⟨h, rfl⟩, h'⟩)
    · exact .inl h
    · exact .inr ⟨h, h'⟩
  · rintro (h | ⟨h, h'⟩)
    · exact .inl h
    · exact .inr ⟨(), s, ⟨h, rfl⟩, h'⟩

theorem writeChecked_eq_ok {u : Unit} {a v : Int} {s t : State} :
    writeChecked a v s = .ok u t ↔
      (s.inSystemMode = true ∨ inSystemZone s.cfg a = false) ∧ inRange s.cfg a = true ∧
        t = s.setMem (writeCell s.cfg.memInit s.mem a.toNat v) := by
  simp only [writeChecked, andThen_eq_ok, protCheck_eq_ok, memWrite_eq_ok]
  constructor
  · rintro ⟨_, _, ⟨h, rfl⟩, h'⟩
    exact ⟨h, h'⟩
  · rintro ⟨h, h'⟩
    exact ⟨(), s, ⟨h, rfl⟩, h'⟩

theorem writeChecked_eq_stopped {a v : Int} {s t : State} :
    writeChecked a v s = .stopped t ↔
      ((s.inSystemMode = false ∧ inSystemZone s.cfg a = true) ∧
        t = s.halt.setFault (.protectionFault a s.ir (instructionAddress s))) ∨
      ((s.inSystemMode = true ∨ inSystemZone s.cfg a = false) ∧ inRange s.cfg a = false ∧
        t = s.halt.setFault (.memRangeFault a)) := by
  simp only [writeChecked, andThen_eq_stopped, protCheck_eq_stopped, protCheck_eq_ok, memWrite_eq_stopped]
  constructor
  · rintro (h | ⟨_, _, ⟨h, rfl⟩, h'⟩)
    · exact .inl h
    · exact .inr ⟨h, h'⟩
  · rintro (h | ⟨h, h'⟩)
    · exact .inl h
    · exact .inr ⟨(), s, ⟨h, rfl⟩, h'⟩

@[simp] theorem intoAc_ok (v : Int) (s : State) : intoAc (.ok v s) = .ok () (s.setAc v) := rfl

@[simp] theorem intoAc_stopped (s : State) : intoAc (.stopped s) = .stopped s := rfl

theorem intoAc_eq_ok {r : Ran Int} {t : State} : intoAc r = .ok () t ↔ ∃ v s, r = .ok v s ∧ t = s.setAc v := by
  cases r <;> simp [eq_comm]

theorem intoAc_eq_stopped {r : Ran Int} {t : State} : intoAc r = .stopped t ↔ r = .stopped t := by
  cases r <;> simp

/-- The condition of JUMPIFEQ and JUMPIFNE is on all bits of `AC` (R93). -/
theorem acIsZero_iff {s : State} : acIsZero s = true ↔ s.ac = 0 := by simp [acIsZero]

/-! The active stack pointer, by mode (R15). -/

@[simp] theorem activeSp_user {s : State} (h : s.inSystemMode = false) : activeSp s = s.userSp := by simp [activeSp, h]

@[simp] theorem activeSp_system {s : State} (h : s.inSystemMode = true) : activeSp s = s.systemSp := by simp [activeSp, h]

@[simp] theorem setActiveSp_user {s : State} (h : s.inSystemMode = false) (v : Int) : setActiveSp s v = s.setUserSp v := by
  simp [setActiveSp, h]

@[simp] theorem setActiveSp_system {s : State} (h : s.inSystemMode = true) (v : Int) :
    setActiveSp s v = s.setSystemSp v := by simp [setActiveSp, h]

section
variable (s : State) (v : Int)

@[simp] theorem setActiveSp_cfg : (setActiveSp s v).cfg = s.cfg := by unfold setActiveSp; split <;> rfl
@[simp] theorem setActiveSp_pc : (setActiveSp s v).pc = s.pc := by unfold setActiveSp; split <;> rfl
@[simp] theorem setActiveSp_ac : (setActiveSp s v).ac = s.ac := by unfold setActiveSp; split <;> rfl
@[simp] theorem setActiveSp_x : (setActiveSp s v).x = s.x := by unfold setActiveSp; split <;> rfl
@[simp] theorem setActiveSp_y : (setActiveSp s v).y = s.y := by unfold setActiveSp; split <;> rfl
@[simp] theorem setActiveSp_ir : (setActiveSp s v).ir = s.ir := by unfold setActiveSp; split <;> rfl
@[simp] theorem setActiveSp_inSystemMode : (setActiveSp s v).inSystemMode = s.inSystemMode := by
  unfold setActiveSp; split <;> rfl
@[simp] theorem setActiveSp_interruptsEnabled : (setActiveSp s v).interruptsEnabled = s.interruptsEnabled := by
  unfold setActiveSp; split <;> rfl
@[simp] theorem setActiveSp_running : (setActiveSp s v).running = s.running := by unfold setActiveSp; split <;> rfl
@[simp] theorem setActiveSp_countdown : (setActiveSp s v).countdown = s.countdown := by unfold setActiveSp; split <;> rfl
@[simp] theorem setActiveSp_fault : (setActiveSp s v).fault = s.fault := by unfold setActiveSp; split <;> rfl
@[simp] theorem setActiveSp_operandLatch : (setActiveSp s v).operandLatch = s.operandLatch := by
  unfold setActiveSp; split <;> rfl
@[simp] theorem setActiveSp_mem : (setActiveSp s v).mem = s.mem := by unfold setActiveSp; split <;> rfl
@[simp] theorem setActiveSp_output : (setActiveSp s v).output = s.output := by unfold setActiveSp; split <;> rfl
@[simp] theorem setActiveSp_randomNext : (setActiveSp s v).randomNext = s.randomNext := by unfold setActiveSp; split <;> rfl
@[simp] theorem setActiveSp_draws : (setActiveSp s v).draws = s.draws := by unfold setActiveSp; split <;> rfl
@[simp] theorem setActiveSp_cell (a : Nat) : (setActiveSp s v).cell a = s.cell a := by unfold setActiveSp; split <;> rfl

end

theorem push_eq_ok {u : Unit} {v : Int} {s t : State} :
    push v s = .ok u t ↔ inRange s.cfg (wrap s.cfg.xlen (activeSp s - 1)) = true ∧
      t = (setActiveSp s (wrap s.cfg.xlen (activeSp s - 1))).setMem
        (writeCell s.cfg.memInit s.mem (wrap s.cfg.xlen (activeSp s - 1)).toNat v) := by
  simp [push, memWrite_eq_ok]

theorem push_eq_stopped {v : Int} {s t : State} :
    push v s = .stopped t ↔ inRange s.cfg (wrap s.cfg.xlen (activeSp s - 1)) = false ∧
      t = (setActiveSp s (wrap s.cfg.xlen (activeSp s - 1))).halt.setFault
        (.memRangeFault (wrap s.cfg.xlen (activeSp s - 1))) := by
  simp [push, memWrite_eq_stopped]

theorem pop_eq_ok {v : Int} {s t : State} :
    pop s = .ok v t ↔ inRange s.cfg (activeSp s) = true ∧ v = s.cell (activeSp s).toNat ∧
      t = setActiveSp s (wrap s.cfg.xlen (activeSp s + 1)) := by
  simp only [pop, andThen_eq_ok, memRead_eq_ok]
  constructor
  · rintro ⟨w, u, ⟨h, rfl, rfl⟩, h'⟩
    cases h'
    exact ⟨h, rfl, rfl⟩
  · rintro ⟨h, rfl, rfl⟩
    exact ⟨_, s, ⟨h, rfl, rfl⟩, rfl⟩

theorem pop_eq_stopped {s t : State} :
    pop s = .stopped t ↔ inRange s.cfg (activeSp s) = false ∧ t = s.halt.setFault (.memRangeFault (activeSp s)) := by
  simp [pop, andThen_eq_stopped, memRead_eq_stopped]

theorem pushSystem_eq_ok {u : Unit} {v : Int} {s t : State} :
    pushSystem v s = .ok u t ↔ inRange s.cfg (wrap s.cfg.xlen (s.systemSp - 1)) = true ∧
      t = (s.setSystemSp (wrap s.cfg.xlen (s.systemSp - 1))).setMem
        (writeCell s.cfg.memInit s.mem (wrap s.cfg.xlen (s.systemSp - 1)).toNat v) := by
  simp [pushSystem, memWrite_eq_ok]

theorem pushSystem_eq_stopped {v : Int} {s t : State} :
    pushSystem v s = .stopped t ↔ inRange s.cfg (wrap s.cfg.xlen (s.systemSp - 1)) = false ∧
      t = (s.setSystemSp (wrap s.cfg.xlen (s.systemSp - 1))).halt.setFault
        (.memRangeFault (wrap s.cfg.xlen (s.systemSp - 1))) := by
  simp [pushSystem, memWrite_eq_stopped]

theorem popSystem_eq_ok {v : Int} {s t : State} :
    popSystem s = .ok v t ↔ inRange s.cfg s.systemSp = true ∧ v = s.cell s.systemSp.toNat ∧
      t = s.setSystemSp (wrap s.cfg.xlen (s.systemSp + 1)) := by
  simp only [popSystem, andThen_eq_ok, memRead_eq_ok]
  constructor
  · rintro ⟨w, u, ⟨h, rfl, rfl⟩, h'⟩
    cases h'
    exact ⟨h, rfl, rfl⟩
  · rintro ⟨h, rfl, rfl⟩
    exact ⟨_, s, ⟨h, rfl, rfl⟩, rfl⟩

theorem popSystem_eq_stopped {s t : State} :
    popSystem s = .stopped t ↔ inRange s.cfg s.systemSp = false ∧ t = s.halt.setFault (.memRangeFault s.systemSp) := by
  simp [popSystem, andThen_eq_stopped, memRead_eq_stopped]

/-- Where a delivery goes on: both words are stored, `PC` first, and the core is in system mode at the target (R126). -/
theorem deliver_eq_ok {u : Unit} {target : Int} {s t : State} :
    deliver target s = .ok u t ↔
      inRange s.cfg (wrap s.cfg.xlen (s.systemSp - 1)) = true ∧ inRange s.cfg (wrap s.cfg.xlen (s.systemSp - 2)) = true ∧
        t = (((s.setSystemSp (wrap s.cfg.xlen (s.systemSp - 2))).setMem
          (writeCell s.cfg.memInit (writeCell s.cfg.memInit s.mem (wrap s.cfg.xlen (s.systemSp - 1)).toNat s.pc)
            (wrap s.cfg.xlen (s.systemSp - 2)).toNat s.userSp)).setPc target).setMode true false := by
  simp only [deliver, andThen_eq_ok, pushSystem_eq_ok]
  rw [← wrap_sub_one_sub_one s.cfg.xlen s.systemSp]
  constructor
  · rintro ⟨_, _, ⟨h, rfl⟩, _, _, ⟨h', rfl⟩, h''⟩
    cases h''
    exact ⟨h, h', rfl⟩
  · rintro ⟨h, h', rfl⟩
    exact ⟨(), _, ⟨h, rfl⟩, (), _, ⟨h', rfl⟩, rfl⟩

/-- Where a delivery stops, in a state that no run reaches (R22): at the store of `PC` or at the store of `UserSP`. -/
theorem deliver_eq_stopped {target : Int} {s t : State} :
    deliver target s = .stopped t ↔
      (inRange s.cfg (wrap s.cfg.xlen (s.systemSp - 1)) = false ∧
        t = (s.setSystemSp (wrap s.cfg.xlen (s.systemSp - 1))).halt.setFault
          (.memRangeFault (wrap s.cfg.xlen (s.systemSp - 1)))) ∨
      (inRange s.cfg (wrap s.cfg.xlen (s.systemSp - 1)) = true ∧ inRange s.cfg (wrap s.cfg.xlen (s.systemSp - 2)) = false ∧
        t = ((s.setSystemSp (wrap s.cfg.xlen (s.systemSp - 2))).setMem
          (writeCell s.cfg.memInit s.mem (wrap s.cfg.xlen (s.systemSp - 1)).toNat s.pc)).halt.setFault
          (.memRangeFault (wrap s.cfg.xlen (s.systemSp - 2)))) := by
  simp only [deliver, andThen_eq_stopped, pushSystem_eq_ok, pushSystem_eq_stopped]
  rw [← wrap_sub_one_sub_one s.cfg.xlen s.systemSp]
  constructor
  · rintro (h | ⟨_, _, ⟨h, rfl⟩, ⟨h', rfl⟩ | ⟨_, _, _, h''⟩⟩)
    · exact .inl h
    · exact .inr ⟨h, h', rfl⟩
    · cases h''
  · rintro (h | ⟨h, h', rfl⟩)
    · exact .inl h
    · exact .inr ⟨(), _, ⟨h, rfl⟩, .inl ⟨h', rfl⟩⟩

/-- Where a return from interrupt goes on (R109). -/
theorem returnFromInterrupt_eq_ok {u : Unit} {s t : State} :
    returnFromInterrupt s = .ok u t ↔
      inRange s.cfg s.systemSp = true ∧ inRange s.cfg (wrap s.cfg.xlen (s.systemSp + 1)) = true ∧
        t = (((s.setUserSp (s.cell s.systemSp.toNat)).setPc (s.cell (wrap s.cfg.xlen (s.systemSp + 1)).toNat)).setSystemSp
          s.cfg.systemSpInit).setMode false true := by
  simp only [returnFromInterrupt, andThen_eq_ok, popSystem_eq_ok]
  constructor
  · rintro ⟨_, _, ⟨h, rfl, rfl⟩, _, _, ⟨h', rfl, rfl⟩, h''⟩
    cases h''
    exact ⟨h, h', rfl⟩
  · rintro ⟨h, h', rfl⟩
    exact ⟨_, _, ⟨h, rfl, rfl⟩, _, _, ⟨h', rfl, rfl⟩, rfl⟩

/-- Where a return from interrupt stops: at the pop of `UserSP`, or at the pop of `PC` with `UserSP` already restored (D30). -/
theorem returnFromInterrupt_eq_stopped {s t : State} :
    returnFromInterrupt s = .stopped t ↔
      (inRange s.cfg s.systemSp = false ∧ t = s.halt.setFault (.memRangeFault s.systemSp)) ∨
      (inRange s.cfg s.systemSp = true ∧ inRange s.cfg (wrap s.cfg.xlen (s.systemSp + 1)) = false ∧
        t = ((s.setUserSp (s.cell s.systemSp.toNat)).setSystemSp (wrap s.cfg.xlen (s.systemSp + 1))).halt.setFault
          (.memRangeFault (wrap s.cfg.xlen (s.systemSp + 1)))) := by
  simp only [returnFromInterrupt, andThen_eq_stopped, popSystem_eq_ok, popSystem_eq_stopped]
  constructor
  · rintro (h | ⟨_, _, ⟨h, rfl, rfl⟩, ⟨h', rfl⟩ | ⟨_, _, _, h''⟩⟩)
    · exact .inl h
    · exact .inr ⟨h, h', rfl⟩
    · cases h''
  · rintro (h | ⟨h, h', rfl⟩)
    · exact .inl h
    · exact .inr ⟨_, _, ⟨h, rfl, rfl⟩, .inl ⟨h', rfl⟩⟩

theorem timerFires_iff {s : State} : timerFires s = true ↔ s.inSystemMode = false ∧ (wrap s.cfg.xlen (s.countdown - 1)) ≤ 0 := by
  simp [timerFires]

/-- Where the timer phase goes on: system mode, a countdown that has not run out, or a delivery and the reload (R62). -/
theorem timerPhase_eq_ok {k : Unit} {s t : State} :
    timerPhase s = .ok k t ↔
      (s.inSystemMode = true ∧ t = s) ∨
      (s.inSystemMode = false ∧ timerFires s = false ∧ t = s.setCountdown (wrap s.cfg.xlen (s.countdown - 1))) ∨
      (s.inSystemMode = false ∧ timerFires s = true ∧
        ∃ u, deliver s.cfg.timerVector (s.setCountdown (wrap s.cfg.xlen (s.countdown - 1))) = .ok () u ∧
          t = u.setCountdown s.cfg.timerPeriod) := by
  unfold timerPhase
  split
  · rename_i h
    simp [h, eq_comm (a := t)]
  · rename_i h
    split
    · rename_i h'
      simp only [andThen_eq_ok]
      constructor
      · rintro ⟨_, u, hu, ht⟩
        cases ht
        refine .inr (.inr ⟨by simpa using h, h', u, hu, ?_⟩)
        rw [deliver_eq_ok] at hu
        obtain ⟨_, _, rfl⟩ := hu
        rfl
      · rintro (⟨h'', _⟩ | ⟨_, h'', _⟩ | ⟨_, _, u, hu, rfl⟩)
        · exact absurd h'' h
        · simp [h'] at h''
        · refine ⟨(), u, hu, ?_⟩
          rw [deliver_eq_ok] at hu
          obtain ⟨_, _, rfl⟩ := hu
          rfl
    · rename_i h'
      simp [h, h', eq_comm (a := t)]

/-- The timer phase stops only where its delivery does. -/
theorem timerPhase_eq_stopped {s t : State} :
    timerPhase s = .stopped t ↔
      s.inSystemMode = false ∧ timerFires s = true ∧
        deliver s.cfg.timerVector (s.setCountdown (wrap s.cfg.xlen (s.countdown - 1))) = .stopped t := by
  unfold timerPhase
  split
  · rename_i h
    simp [h]
  · rename_i h
    split <;> rename_i h' <;> simp [h, h', andThen_eq_stopped]

theorem fetchOpcode_eq_ok {w : Int} {s t : State} :
    fetchOpcode s = .ok w t ↔ inRange s.cfg s.pc = true ∧ w = s.cell s.pc.toNat ∧
      t = (s.setIr (s.cell s.pc.toNat)).setPc (wrap s.cfg.xlen (s.pc + 1)) := by
  simp only [fetchOpcode, andThen_eq_ok, memRead_eq_ok]
  constructor
  · rintro ⟨_, _, ⟨h, rfl, rfl⟩, h'⟩
    cases h'
    exact ⟨h, rfl, rfl⟩
  · rintro ⟨h, rfl, rfl⟩
    exact ⟨_, _, ⟨h, rfl, rfl⟩, rfl⟩

theorem fetchOpcode_eq_stopped {s t : State} :
    fetchOpcode s = .stopped t ↔ inRange s.cfg s.pc = false ∧ t = s.halt.setFault (.memRangeFault s.pc) := by
  simp [fetchOpcode, andThen_eq_stopped, memRead_eq_stopped]

theorem fetchOperand_eq_ok {v : Int} {s t : State} :
    fetchOperand s = .ok v t ↔ inRange s.cfg s.pc = true ∧ v = s.cell s.pc.toNat ∧
      t = (s.setOperandLatch (s.cell s.pc.toNat)).setPc (wrap s.cfg.xlen (s.pc + 1)) := by
  simp only [fetchOperand, andThen_eq_ok, memRead_eq_ok]
  constructor
  · rintro ⟨_, _, ⟨h, rfl, rfl⟩, h'⟩
    cases h'
    exact ⟨h, rfl, rfl⟩
  · rintro ⟨h, rfl, rfl⟩
    exact ⟨_, _, ⟨h, rfl, rfl⟩, rfl⟩

theorem fetchOperand_eq_stopped {s t : State} :
    fetchOperand s = .stopped t ↔ inRange s.cfg s.pc = false ∧ t = s.halt.setFault (.memRangeFault s.pc) := by
  simp [fetchOperand, andThen_eq_stopped, memRead_eq_stopped]

/-- The random word consumed and the state that is left (R107). -/
@[simp] theorem randomDraw_eq (s : State) : randomDraw s = .ok (nextRandom s) (s.consumeDraw s.randomNext.tail) := rfl

@[simp] theorem output_eq (k : OutKind) (v : Int) (s : State) : output k v s = .ok () (s.emit ⟨k, v⟩) := rfl

end Sys2Proof.Machine
end

