-- ==== Sys2Proof/Laws/Exec.lean ====
section
/-! SUPPORT. What an instruction's meaning can do to the state, said once: `exec i s` goes to a state of one of these shapes
(`exec_effect`). A claim about every instruction is then a case split over the shapes, not over 31 meanings. -/

namespace Sys2Proof.Machine

/-- Where a word comes from that instruction `i` writes to a register in state `s`: its operand, a cell, the result of a sum,
another register, or a draw. -/
inductive Origin (s : State) (i : Instr) : Int → Prop where
  | operand {v : Int} : i.operand? = some v → Origin s i v
  | cell (a : Nat) : Origin s i (s.cell a)
  | sum (n : Int) : Origin s i (wrap s.cfg.xlen n)
  | register {v : Int} : v ∈ [s.ac, s.x, s.y, s.userSp, s.systemSp] → Origin s i v

/-- The shapes of the state after instruction `i` in state `s`. -/
inductive Effect (s : State) : Instr → State → Prop where
  /-- Nothing: a jump not taken, a masked INT, an IRET in user mode, a PUT of no kind. -/
  | same {i : Instr} : i.op ∈ [Op.jumpifeq, .jumpifne, .put, .int, .iret] → Effect s i s
  /-- A word in `AC`: a load, an arithmetic instruction, a copy. -/
  | toAc {i : Instr} {v : Int} : Origin s i v →
      i.op ∈ [Op.loadv, .loada, .loadind, .loadidxx, .loadidxy, .loadspx, .addx, .addy, .subx, .suby, .copyfromx,
        .copyfromy, .copyfromsp] → Effect s i (s.setAc v)
  | toX {i : Instr} {v : Int} : Origin s i v → i.op ∈ [Op.copytox, .incx, .decx] → Effect s i (s.setX v)
  | toY : Effect s .copytoy (s.setY s.ac)
  | toSp : Effect s .copytosp (setActiveSp s s.ac)
  | jumped {i : Instr} {v : Int} : i.operand? = some v → i.op ∈ [Op.jump, .jumpifeq, .jumpifne] → Effect s i (s.setPc v)
  /-- A fault of a data access or of a pop, before any effect. -/
  | faulted {i : Instr} (f : FaultRecord) :
      i.op ∈ [Op.loada, .loadind, .loadidxx, .loadidxy, .loadspx, .store, .ret, .pop] → Effect s i (s.halt.setFault f)
  | stored (a : Int) : (s.inSystemMode = true ∨ inSystemZone s.cfg a = false) → inRange s.cfg a = true →
      Effect s (.store a) (s.setMem (writeCell s.cfg.memInit s.mem a.toNat s.ac))
  | pushed : inRange s.cfg (wrap s.cfg.xlen (activeSp s - 1)) = true →
      Effect s .push ((setActiveSp s (wrap s.cfg.xlen (activeSp s - 1))).setMem
        (writeCell s.cfg.memInit s.mem (wrap s.cfg.xlen (activeSp s - 1)).toNat s.ac))
  | called (target : Int) : inRange s.cfg (wrap s.cfg.xlen (activeSp s - 1)) = true →
      Effect s (.call target)
        (((setActiveSp s (wrap s.cfg.xlen (activeSp s - 1))).setMem
          (writeCell s.cfg.memInit s.mem (wrap s.cfg.xlen (activeSp s - 1)).toNat s.pc)).setPc target)
  /-- A push out of range: the decremented pointer is kept (D30). -/
  | pushFaulted {i : Instr} : i.op ∈ [Op.push, .call] → inRange s.cfg (wrap s.cfg.xlen (activeSp s - 1)) = false →
      Effect s i ((setActiveSp s (wrap s.cfg.xlen (activeSp s - 1))).halt.setFault
        (.memRangeFault (wrap s.cfg.xlen (activeSp s - 1))))
  | popped : inRange s.cfg (activeSp s) = true →
      Effect s .pop ((setActiveSp s (wrap s.cfg.xlen (activeSp s + 1))).setAc (s.cell (activeSp s).toNat))
  | returned : inRange s.cfg (activeSp s) = true →
      Effect s .ret ((setActiveSp s (wrap s.cfg.xlen (activeSp s + 1))).setPc (s.cell (activeSp s).toNat))
  | emitted (port : Int) (k : OutKind) : Effect s (.put port) (s.emit ⟨k, s.ac⟩)
  | drew : Effect s .get ((s.consumeDraw s.randomNext.tail).setAc (nextRandom s))
  | trapped {t : State} : s.interruptsEnabled = true → deliver s.cfg.syscallVector s = .ok () t → Effect s .int t
  | trapFaulted {t : State} : s.interruptsEnabled = true → deliver s.cfg.syscallVector s = .stopped t → Effect s .int t
  | resumed {t : State} : s.inSystemMode = true → returnFromInterrupt s = .ok () t → Effect s .iret t
  | resumeFaulted {t : State} : s.inSystemMode = true → returnFromInterrupt s = .stopped t → Effect s .iret t
  | halted : Effect s .halt s.halt

/-- A checked read into `AC` writes `AC` or faults. -/
theorem intoAc_readChecked_effect {a : Int} {s t : State} (h : (intoAc (readChecked a s)).outcome = .next t) :
    (∃ b, t = s.setAc (s.cell b)) ∨ ∃ f, t = s.halt.setFault f := by
  rcases outcome_eq_next.1 h with h | h
  · obtain ⟨v, u, hr, rfl⟩ := intoAc_eq_ok.1 h
    obtain ⟨_, _, rfl, rfl⟩ := readChecked_eq_ok.1 hr
    exact .inl ⟨_, rfl⟩
  · rcases readChecked_eq_stopped.1 (intoAc_eq_stopped.1 h) with ⟨_, rfl⟩ | ⟨_, _, rfl⟩ <;> exact .inr ⟨_, rfl⟩

/-- Every meaning has one of the shapes of `Effect`. -/
theorem exec_effect {i : Instr} {s t : State} (h : exec i s = .next t) : Effect s i t := by
  have checked : ∀ {j : Instr} {a : Int}, (intoAc (readChecked a s)).outcome = .next t →
      j.op ∈ [Op.loada, .loadidxx, .loadidxy] → Effect s j t := by
    intro j a h hj
    rcases intoAc_readChecked_effect h with ⟨b, rfl⟩ | ⟨f, rfl⟩
    · exact .toAc (.cell b) (by simp at hj ⊢; tauto)
    · exact .faulted f (by simp at hj ⊢; tauto)
  cases i with
  | loadv v => cases h; exact .toAc (.operand rfl) (by simp [Instr.op])
  | loada a => exact checked h (by simp [Instr.op])
  | loadind a =>
    change (intoAc ((readChecked a s).andThen fun p s => readChecked p s)).outcome = .next t at h
    cases hp : readChecked a s with
    | ok p u =>
      obtain ⟨_, _, _, rfl⟩ := readChecked_eq_ok.1 hp
      rw [hp, andThen_ok] at h
      rcases intoAc_readChecked_effect h with ⟨b, rfl⟩ | ⟨f, rfl⟩
      · exact .toAc (.cell b) (by simp [Instr.op])
      · exact .faulted f (by simp [Instr.op])
    | stopped u =>
      rw [hp] at h
      cases h
      rcases readChecked_eq_stopped.1 hp with ⟨_, rfl⟩ | ⟨_, _, rfl⟩ <;> exact .faulted _ (by simp [Instr.op])
  | loadidxx b => exact checked h (by simp [Instr.op])
  | loadidxy b => exact checked h (by simp [Instr.op])
  | loadspx =>
    rcases outcome_eq_next.1 h with h | h
    · obtain ⟨v, u, hr, rfl⟩ := intoAc_eq_ok.1 h
      obtain ⟨_, rfl, rfl⟩ := memRead_eq_ok.1 hr
      exact .toAc (.cell _) (by simp [Instr.op])
    · obtain ⟨_, rfl⟩ := memRead_eq_stopped.1 (intoAc_eq_stopped.1 h)
      exact .faulted _ (by simp [Instr.op])
  | store a =>
    rcases outcome_eq_next.1 h with h | h
    · obtain ⟨ha, hr, rfl⟩ := writeChecked_eq_ok.1 h
      exact .stored a ha hr
    · rcases writeChecked_eq_stopped.1 h with ⟨_, rfl⟩ | ⟨_, _, rfl⟩ <;> exact .faulted _ (by simp [Instr.op])
  | addx => cases h; exact .toAc (.sum _) (by simp [Instr.op])
  | addy => cases h; exact .toAc (.sum _) (by simp [Instr.op])
  | subx => cases h; exact .toAc (.sum _) (by simp [Instr.op])
  | suby => cases h; exact .toAc (.sum _) (by simp [Instr.op])
  | copytox => cases h; exact .toX (.register (by simp)) (by simp [Instr.op])
  | copyfromx => cases h; exact .toAc (.register (by simp)) (by simp [Instr.op])
  | copytoy => cases h; exact .toY
  | copyfromy => cases h; exact .toAc (.register (by simp)) (by simp [Instr.op])
  | copytosp => cases h; exact .toSp
  | copyfromsp =>
    cases h
    exact .toAc (.register (by unfold activeSp; split <;> simp)) (by simp [Instr.op])
  | jump a => cases h; exact .jumped rfl (by simp [Instr.op])
  | jumpifeq a =>
    cases h
    split
    · exact .jumped rfl (by simp [Instr.op])
    · exact .same (by simp [Instr.op])
  | jumpifne a =>
    cases h
    split
    · exact .same (by simp [Instr.op])
    · exact .jumped rfl (by simp [Instr.op])
  | call a =>
    rcases outcome_eq_next.1 h with h | h
    · obtain ⟨_, u, hp, ht⟩ := andThen_eq_ok.1 h
      obtain ⟨hr, rfl⟩ := push_eq_ok.1 hp
      cases ht
      exact .called a hr
    · rcases andThen_eq_stopped.1 h with hp | ⟨_, _, _, ht⟩
      · obtain ⟨hr, rfl⟩ := push_eq_stopped.1 hp
        exact .pushFaulted (by simp [Instr.op]) hr
      · cases ht
  | ret =>
    rcases outcome_eq_next.1 h with h | h
    · obtain ⟨v, u, hp, ht⟩ := andThen_eq_ok.1 h
      obtain ⟨hr, rfl, rfl⟩ := pop_eq_ok.1 hp
      cases ht
      exact .returned hr
    · rcases andThen_eq_stopped.1 h with hp | ⟨_, _, _, ht⟩
      · obtain ⟨_, rfl⟩ := pop_eq_stopped.1 hp
        exact .faulted _ (by simp [Instr.op])
      · cases ht
  | push =>
    rcases outcome_eq_next.1 h with h | h
    · obtain ⟨hr, rfl⟩ := push_eq_ok.1 h
      exact .pushed hr
    · obtain ⟨hr, rfl⟩ := push_eq_stopped.1 h
      exact .pushFaulted (by simp [Instr.op]) hr
  | pop =>
    rcases outcome_eq_next.1 h with h | h
    · obtain ⟨v, u, hp, rfl⟩ := intoAc_eq_ok.1 h
      obtain ⟨hr, rfl, rfl⟩ := pop_eq_ok.1 hp
      exact .popped hr
    · obtain ⟨_, rfl⟩ := pop_eq_stopped.1 (intoAc_eq_stopped.1 h)
      exact .faulted _ (by simp [Instr.op])
  | put p =>
    simp only [exec, execPut] at h
    split at h
    · cases h; exact .emitted p .int
    · split at h
      · cases h; exact .emitted p .char
      · cases h; exact .same (by simp [Instr.op])
  | incx => cases h; exact .toX (.sum _) (by simp [Instr.op])
  | decx => cases h; exact .toX (.sum _) (by simp [Instr.op])
  | get => cases h; exact .drew
  | int =>
    simp only [exec, execInt] at h
    split at h
    · rename_i hi
      exact (outcome_eq_next.1 h).elim (.trapped hi) (.trapFaulted hi)
    · cases h; exact .same (by simp [Instr.op])
  | iret =>
    simp only [exec, execIret] at h
    split at h
    · rename_i hi
      exact (outcome_eq_next.1 h).elim (.resumed hi) (.resumeFaulted hi)
    · cases h; exact .same (by simp [Instr.op])
  | halt => cases h; exact .halted

end Sys2Proof.Machine
end

