-- ==== Sys2Proof/Laws/PerInstr.lean ====
section
/-! SUPPORT. Facts made per instruction. `EncodedCells`: the cells of an instruction begin with its opcode's number and
are as many as its opcode's format says (spec/30_encoding.md R50, R51). -/

namespace Sys2Proof.Laws

/-- The encoding of `i` begins with its opcode number and has the length of its format, under every opcode map. -/
def EncodedCells.Statement (i : Instr) : Prop :=
  ∀ m : OpcMap, (encode m i).head? = some (m.num i.op) ∧ (encode m i).length = i.cells

theorem EncodedCells.loadv (value : Int) : EncodedCells.Statement (.loadv value) := fun _ => ⟨rfl, rfl⟩
theorem EncodedCells.loada (addr : Int) : EncodedCells.Statement (.loada addr) := fun _ => ⟨rfl, rfl⟩
theorem EncodedCells.loadind (addr : Int) : EncodedCells.Statement (.loadind addr) := fun _ => ⟨rfl, rfl⟩
theorem EncodedCells.loadidxx (base : Int) : EncodedCells.Statement (.loadidxx base) := fun _ => ⟨rfl, rfl⟩
theorem EncodedCells.loadidxy (base : Int) : EncodedCells.Statement (.loadidxy base) := fun _ => ⟨rfl, rfl⟩
theorem EncodedCells.loadspx : EncodedCells.Statement .loadspx := fun _ => ⟨rfl, rfl⟩
theorem EncodedCells.store (addr : Int) : EncodedCells.Statement (.store addr) := fun _ => ⟨rfl, rfl⟩
theorem EncodedCells.addx : EncodedCells.Statement .addx := fun _ => ⟨rfl, rfl⟩
theorem EncodedCells.addy : EncodedCells.Statement .addy := fun _ => ⟨rfl, rfl⟩
theorem EncodedCells.subx : EncodedCells.Statement .subx := fun _ => ⟨rfl, rfl⟩
theorem EncodedCells.suby : EncodedCells.Statement .suby := fun _ => ⟨rfl, rfl⟩
theorem EncodedCells.copytox : EncodedCells.Statement .copytox := fun _ => ⟨rfl, rfl⟩
theorem EncodedCells.copyfromx : EncodedCells.Statement .copyfromx := fun _ => ⟨rfl, rfl⟩
theorem EncodedCells.copytoy : EncodedCells.Statement .copytoy := fun _ => ⟨rfl, rfl⟩
theorem EncodedCells.copyfromy : EncodedCells.Statement .copyfromy := fun _ => ⟨rfl, rfl⟩
theorem EncodedCells.copytosp : EncodedCells.Statement .copytosp := fun _ => ⟨rfl, rfl⟩
theorem EncodedCells.copyfromsp : EncodedCells.Statement .copyfromsp := fun _ => ⟨rfl, rfl⟩
theorem EncodedCells.jump (target : Int) : EncodedCells.Statement (.jump target) := fun _ => ⟨rfl, rfl⟩
theorem EncodedCells.jumpifeq (target : Int) : EncodedCells.Statement (.jumpifeq target) := fun _ => ⟨rfl, rfl⟩
theorem EncodedCells.jumpifne (target : Int) : EncodedCells.Statement (.jumpifne target) := fun _ => ⟨rfl, rfl⟩
theorem EncodedCells.call (target : Int) : EncodedCells.Statement (.call target) := fun _ => ⟨rfl, rfl⟩
theorem EncodedCells.ret : EncodedCells.Statement .ret := fun _ => ⟨rfl, rfl⟩
theorem EncodedCells.push : EncodedCells.Statement .push := fun _ => ⟨rfl, rfl⟩
theorem EncodedCells.pop : EncodedCells.Statement .pop := fun _ => ⟨rfl, rfl⟩
theorem EncodedCells.put (port : Int) : EncodedCells.Statement (.put port) := fun _ => ⟨rfl, rfl⟩
theorem EncodedCells.incx : EncodedCells.Statement .incx := fun _ => ⟨rfl, rfl⟩
theorem EncodedCells.decx : EncodedCells.Statement .decx := fun _ => ⟨rfl, rfl⟩
theorem EncodedCells.get : EncodedCells.Statement .get := fun _ => ⟨rfl, rfl⟩
theorem EncodedCells.int : EncodedCells.Statement .int := fun _ => ⟨rfl, rfl⟩
theorem EncodedCells.iret : EncodedCells.Statement .iret := fun _ => ⟨rfl, rfl⟩
theorem EncodedCells.halt : EncodedCells.Statement .halt := fun _ => ⟨rfl, rfl⟩

end Sys2Proof.Laws
end

