-- ==== Sys2Proof/Laws/Run.lean ====
section
/-! SUPPORT. Runs of several steps: the host's `Core.run` of this machine is `runFor`. -/

namespace Sys2Proof.Machine

/-- One more step in front of a run. -/
theorem runFor_succ {s t : State} (h : step s = .next t) (n : Nat) : runFor (n + 1) s = runFor n t := by
  simp [runFor, h]

/-- One more step in front of a count of user-steps. -/
theorem userSteps_succ {s t : State} (h : step s = .next t) (n : Nat) :
    userSteps (n + 1) s = (if s.running = true ∧ s.inSystemMode = false then 1 else 0) + userSteps n t := by
  simp [userSteps, h]

/-- One more step in front of a run of any core, by the outcome of that step. -/
theorem host_run_succ (M : Host.Core) (n : Nat) (s : M.State) :
    M.run (n + 1) s = match M.step s with
      | .next t => M.run n t
      | .fault r => .fault r
      | .refused r => .refused r := by
  cases h : M.step s <;> simp only [Host.Core.run, h]

/-- The host's run of the core is `runFor`. -/
theorem core_run_eq_runFor (n : Nat) (s : State) : Host.Core.run Sys2Proof.core n s = runFor n s := by
  induction n generalizing s with
  | zero => rfl
  | succ n ih =>
    refine (host_run_succ Sys2Proof.core n s).trans ?_
    cases h : Sys2Proof.core.step s with
    | next t => exact (ih t).trans (runFor_succ h n).symm
    | fault r => cases r
    | refused r =>
      have h' : step s = .refused r := h
      simp only [runFor, h']
      rfl

end Sys2Proof.Machine
end

