-- ==== Sys2Proof/Laws/Step.lean ====
section
/-! SUPPORT. What the phases of a step before an instruction's own meaning can do, and what a step can do, said once. -/

namespace Sys2Proof.Machine

/-- Where the fetch of phases 2 to 4 goes on: the opcode at `PC` is in `IR` and has been decoded, `PC` is one past it, or two
with the operand in the latch. -/
theorem fetch_eq_ok {i : Instr} {s t : State} (h : fetch s = .ok i t) :
    inRange s.cfg s.pc = true ∧ decodeOp s.cfg.opc (s.cell s.pc.toNat) = some i.op ∧
      ((i.op.format = .N ∧ i = i.op.assemble 0 ∧ t = (s.setIr (s.cell s.pc.toNat)).setPc (wrap s.cfg.xlen (s.pc + 1))) ∨
       (i.op.format = .O ∧ inRange s.cfg (wrap s.cfg.xlen (s.pc + 1)) = true ∧
        i = i.op.assemble (s.cell (wrap s.cfg.xlen (s.pc + 1)).toNat) ∧
        t = (((s.setIr (s.cell s.pc.toNat)).setPc (wrap s.cfg.xlen (s.pc + 1))).setOperandLatch
          (s.cell (wrap s.cfg.xlen (s.pc + 1)).toNat)).setPc (wrap s.cfg.xlen (s.pc + 2)))) := by
  rw [← wrap_add_one_add_one s.cfg.xlen s.pc]
  obtain ⟨w, u, hw, h⟩ := andThen_eq_ok.1 h
  obtain ⟨hr, rfl, rfl⟩ := fetchOpcode_eq_ok.1 hw
  split at h
  · simp at h
  · rename_i o ho
    unfold fetchInstr at h
    split at h
    · rename_i hf
      cases h
      rw [assemble_op]
      exact ⟨hr, ho, .inl ⟨hf, rfl, rfl⟩⟩
    · rename_i hf
      obtain ⟨v, u, hv, h⟩ := andThen_eq_ok.1 h
      obtain ⟨hr', rfl, rfl⟩ := fetchOperand_eq_ok.1 hv
      cases h
      rw [assemble_op]
      exact ⟨hr, ho, .inr ⟨hf, hr', rfl, rfl⟩⟩

/-- Where the fetch stops: an opcode cell out of range, an unknown opcode, an operand cell out of range (R131). -/
theorem fetch_eq_stopped {s t : State} (h : fetch s = .stopped t) :
    (inRange s.cfg s.pc = false ∧ t = s.halt.setFault (.memRangeFault s.pc)) ∨
    (inRange s.cfg s.pc = true ∧ decodeOp s.cfg.opc (s.cell s.pc.toNat) = none ∧
      t = ((s.setIr (s.cell s.pc.toNat)).setPc (wrap s.cfg.xlen (s.pc + 1))).halt.setFault
        (.unknownOpcode (s.cell s.pc.toNat) s.pc)) ∨
    (inRange s.cfg s.pc = true ∧ inRange s.cfg (wrap s.cfg.xlen (s.pc + 1)) = false ∧
      t = ((s.setIr (s.cell s.pc.toNat)).setPc (wrap s.cfg.xlen (s.pc + 1))).halt.setFault
        (.memRangeFault (wrap s.cfg.xlen (s.pc + 1)))) := by
  rcases andThen_eq_stopped.1 h with h | ⟨w, u, hw, h⟩
  · exact .inl (fetchOpcode_eq_stopped.1 h)
  · obtain ⟨hr, rfl, rfl⟩ := fetchOpcode_eq_ok.1 hw
    split at h
    · rename_i ho
      cases h
      exact .inr (.inl ⟨hr, ho, rfl⟩)
    · rename_i o ho
      unfold fetchInstr at h
      split at h
      · cases h
      · rcases andThen_eq_stopped.1 h with h | ⟨_, _, _, h⟩
        · obtain ⟨hr', rfl⟩ := fetchOperand_eq_stopped.1 h
          exact .inr (.inr ⟨hr, hr', rfl⟩)
        · cases h

/-- What a step can do: a stopped core stays; the timer phase stops; the fetch stops; or an instruction's own meaning runs
in the state the fetch left. -/
theorem step_cases {s t : State} (h : step s = .next t) :
    (s.running = false ∧ t = s) ∨
    (s.running = true ∧ timerPhase s = .stopped t) ∨
    (s.running = true ∧ ∃ u, timerPhase s = .ok () u ∧ fetch u = .stopped t) ∨
    (s.running = true ∧ ∃ u i v, timerPhase s = .ok () u ∧ fetch u = .ok i v ∧ exec i v = .next t) := by
  unfold step at h
  split at h
  · rename_i hr
    cases hp : prepare s with
    | ok i v =>
      obtain ⟨_, u, hu, hv⟩ := andThen_eq_ok.1 hp
      rw [hp] at h
      exact .inr (.inr (.inr ⟨hr, u, i, v, hu, hv, h⟩))
    | stopped v =>
      rw [hp] at h
      cases h
      rcases andThen_eq_stopped.1 hp with hp | ⟨_, u, hu, hv⟩
      · exact .inr (.inl ⟨hr, hp⟩)
      · exact .inr (.inr (.inl ⟨hr, u, hu, hv⟩))
  · rename_i hr
    cases h
    exact .inl ⟨by simpa using hr, rfl⟩

end Sys2Proof.Machine
end

