-- ==== Sys2Proof/Tests/Slice0.lean ====
section
/-! SUPPORT. Tests of single steps against spec/95_test_vectors.md (the vector's number stands in each docstring), the checks of
R5 and R55, the decoding of every row's word, and for every statement with hypotheses a state that meets them. -/

namespace Sys2Proof.Tests

open Sys2Proof.Machine

/-- What is seen of the state after one step. -/
def seen {β : Type} (s : State) (f : State → β) : Option β :=
  match step s with
  | .next t => some (f t)
  | .fault _ => none
  | .refused _ => none

/-- The state after one step, to start the next from. -/
def next (s : State) : State := (seen s id).getD s

/-- Cells stored in a memory, one by one. -/
def poke (m : Memory) (l : List (Nat × Int)) : Memory := l.foldl (fun m c => writeCell 0 m c.1 c.2) m

/-- The reset state with a row of cells loaded from address 0 on, and other cells as listed. -/
def start (cells : List Int) (other : List (Nat × Int)) : State :=
  State.resetWith defaultParams (poke (placeCells defaultParams 0 cells []) other)

/-- The same, in system mode with the trap masked and the system stack pointer given. -/
def startSystem (cells : List Int) (sp : Int) (other : List (Nat × Int)) : State :=
  ((start cells other).setMode true false).setSystemSp sp

/-! ### The checks of R5 and R55: one ill-formed term for each -/

/-- R55: the greatest word is an operand, the next integer is none. -/
theorem test_operand_refused :
    Instr.WellFormed 32 (.loadv 2147483647) ∧ ¬ Instr.WellFormed 32 (.loadv 2147483648) ∧ Instr.WellFormed 32 .addx := by
  simp [Instr.WellFormed, Instr.operand?, IsWord]

theorem test_default_params_well_formed : defaultParams.WellFormed :=
  ⟨by decide, by decide, by decide, by decide, by decide, by decide, by decide, by decide, by decide, by decide, by decide,
    by decide⟩

theorem test_width_refused : ¬ { defaultParams with xlen := 1 }.WidthOk := by decide

/-- The least width at which 2000 is a non-negative word is 12. -/
theorem test_zones_too_wide_refused :
    { defaultParams with xlen := 12 }.ZonesOk ∧ ¬ { defaultParams with xlen := 11 }.ZonesOk := by decide

theorem test_zones_refused : ¬ { defaultParams with userSize := 0 }.ZonesOk := by decide

theorem test_zones_equal_refused : ¬ { defaultParams with userSize := 2000 }.ZonesOk := by decide

theorem test_room_refused : ¬ { defaultParams with userSize := 1999 }.RoomOk := by decide

theorem test_timer_vector_refused : ¬ { defaultParams with timerVector := 999 }.TimerVectorOk := by decide

theorem test_syscall_vector_refused : ¬ { defaultParams with syscallVector := 2000 }.SyscallVectorOk := by decide

theorem test_period_refused : ¬ { defaultParams with timerPeriod := 0 }.PeriodOk := by decide

theorem test_period_no_word_refused : ¬ { defaultParams with timerPeriod := 2147483648 }.PeriodOk := by decide

theorem test_ports_refused : ¬ { defaultParams with portChar := 1 }.PortsOk := by decide

theorem test_rand_refused : ¬ { defaultParams with randMin := 101 }.RandOk := by decide

theorem test_rand_no_word_refused : ¬ { defaultParams with randMax := 2147483648 }.RandOk := by decide

theorem test_user_sp_refused : ¬ { defaultParams with userSpInit := 1001 }.UserSpOk := by decide

theorem test_system_sp_refused : ¬ { defaultParams with systemSpInit := 1001 }.SystemSpOk := by decide

theorem test_opc_refused : ¬ OpcMap.Injective { defaultOpc with halt := 1 } := by decide

theorem test_mem_init_refused : ¬ { defaultParams with memInit := 2147483648 }.FillOk := by decide

theorem test_reset_gpr_refused : ¬ { defaultParams with resetGpr := -2147483649 }.FillOk := by decide

theorem test_ill_formed_params_refused : ¬ { defaultParams with timerPeriod := 0 }.WellFormed :=
  fun h => absurd h.period (by decide)

/-! ### Decoding: a word of every row, written out from the map of R53 and the formats of R51 -/

theorem test_decode_loadv : decode defaultOpc [1, 700, 3] = .ok (.loadv 700, [3]) := by decide

theorem test_decode_loada : decode defaultOpc [2, 701, 3] = .ok (.loada 701, [3]) := by decide

theorem test_decode_loadind : decode defaultOpc [3, 702, 3] = .ok (.loadind 702, [3]) := by decide

theorem test_decode_loadidxx : decode defaultOpc [4, 703, 3] = .ok (.loadidxx 703, [3]) := by decide

theorem test_decode_loadidxy : decode defaultOpc [5, 704, 3] = .ok (.loadidxy 704, [3]) := by decide

theorem test_decode_loadspx : decode defaultOpc [6, 705] = .ok (.loadspx, [705]) := by decide

theorem test_decode_store : decode defaultOpc [7, 706, 3] = .ok (.store 706, [3]) := by decide

theorem test_decode_addx : decode defaultOpc [10, 707] = .ok (.addx, [707]) := by decide

theorem test_decode_addy : decode defaultOpc [11, 708] = .ok (.addy, [708]) := by decide

theorem test_decode_subx : decode defaultOpc [12, 709] = .ok (.subx, [709]) := by decide

theorem test_decode_suby : decode defaultOpc [13, 710] = .ok (.suby, [710]) := by decide

theorem test_decode_copytox : decode defaultOpc [14, 711] = .ok (.copytox, [711]) := by decide

theorem test_decode_copyfromx : decode defaultOpc [15, 712] = .ok (.copyfromx, [712]) := by decide

theorem test_decode_copytoy : decode defaultOpc [16, 713] = .ok (.copytoy, [713]) := by decide

theorem test_decode_copyfromy : decode defaultOpc [17, 714] = .ok (.copyfromy, [714]) := by decide

theorem test_decode_copytosp : decode defaultOpc [18, 715] = .ok (.copytosp, [715]) := by decide

theorem test_decode_copyfromsp : decode defaultOpc [19, 716] = .ok (.copyfromsp, [716]) := by decide

theorem test_decode_jump : decode defaultOpc [20, 717, 3] = .ok (.jump 717, [3]) := by decide

theorem test_decode_jumpifeq : decode defaultOpc [21, 718, 3] = .ok (.jumpifeq 718, [3]) := by decide

theorem test_decode_jumpifne : decode defaultOpc [22, 719, 3] = .ok (.jumpifne 719, [3]) := by decide

theorem test_decode_call : decode defaultOpc [23, 720, 3] = .ok (.call 720, [3]) := by decide

theorem test_decode_ret : decode defaultOpc [24, 721] = .ok (.ret, [721]) := by decide

theorem test_decode_push : decode defaultOpc [27, 722] = .ok (.push, [722]) := by decide

theorem test_decode_pop : decode defaultOpc [28, 723] = .ok (.pop, [723]) := by decide

theorem test_decode_put : decode defaultOpc [9, 724, 3] = .ok (.put 724, [3]) := by decide

theorem test_decode_incx : decode defaultOpc [25, 725] = .ok (.incx, [725]) := by decide

theorem test_decode_decx : decode defaultOpc [26, 726] = .ok (.decx, [726]) := by decide

theorem test_decode_get : decode defaultOpc [8, 727] = .ok (.get, [727]) := by decide

theorem test_decode_int : decode defaultOpc [29, 728] = .ok (.int, [728]) := by decide

theorem test_decode_iret : decode defaultOpc [30, 729] = .ok (.iret, [729]) := by decide

theorem test_decode_halt : decode defaultOpc [50, 730] = .ok (.halt, [730]) := by decide

/-- The words of the opcode table, operand words of zeros. -/
theorem test_table_words :
    [1, 9, 10, 23, 50].map (decodeTableWord 32) =
      [some (.loadv 0), some (.put 0), some .addx, some (.call 0), some .halt] := by decide

/-- An operand cell that the table numbers as bits 63..32; bits above the row's own are 0. -/
theorem test_table_operand :
    decodeTableWord 64 (1 + 5 * 2 ^ 32) = some (.loadv 5) ∧ decodeTableWord 32 (1 + 5 * 2 ^ 32) = some (.loadv 0) := by decide

/-- U1 to U6: cells that are no opcode; U5 shows that nothing is masked. -/
theorem test_unknown_words :
    [0, 31, 49, 51, 257].map (decodeTableWord 32) = [none, none, none, none, none] := by decide

/-- `withFetchWord` at reset: the very next step runs the instruction. -/
theorem test_with_fetch_word :
    seen (State.reset.withFetchWord 64 (1 + 5 * 2 ^ 32)) (fun t => (t.ac, t.pc, t.ir)) = some (5, 2, 1) := by decide

/-- The same where the timer fires in that step: the word stands at the handler's entry. -/
theorem test_with_fetch_word_timer :
    seen ((State.reset.setCountdown 1).withFetchWord 32 25) (fun t => (t.x, t.pc, t.countdown)) = some (1, 1001, 1000) := by
  decide

/-! ### The parameters of R4 that no other test varies -/

/-- R6 and R105 at `XLEN` = 16 (the boundary of M2 moved to that width). -/
theorem test_width_16 :
    seen { start [25] [] with cfg := { defaultParams with xlen := 16 }, x := 32767 } (fun t => (t.x, t.pc)) = some (-32768, 1) := by
  decide

/-- `MEM_INIT` and `RESET_GPR` (R4, D7, D9): STORE writes the reset value of `AC` and leaves its neighbour at `MEM_INIT`. -/
theorem test_mem_init_and_reset_gpr :
    seen (State.resetWith { defaultParams with memInit := 7, resetGpr := 9 } [(1, 10)])
      (fun t => (t.cell 10, t.cell 11, t.x, t.mem)) = some (9, 7, 9, [(1, 10), (10, 9)]) := by
  decide

/-! ### One step each -/

/-- L1. -/
theorem test_loadv :
    seen ((start [1, 5] []).setAc 9) (fun t => (t.ac, t.pc, t.countdown)) = some (5, 2, 999) := by
  decide

/-- L2. -/
theorem test_loadv_of_an_address :
    seen (start [1, 1500] []) (fun t => (t.ac, t.running)) = some (1500, true) := by
  decide

/-- L5. -/
theorem test_loada :
    seen (start [2, 0] []) (fun t => (t.ac, t.ir)) = some (2, 2) := by
  decide

/-- L6. -/
theorem test_loada_out_of_range :
    seen ((start [2, 2000] []).setAc 9) (fun t => (t.ac, t.pc, t.fault)) =
      some (9, 2, some (.memRangeFault 2000)) := by
  decide

/-- L8. -/
theorem test_loadind :
    seen (start [3, 300] [(300, 400), (400, 12)]) (fun t => t.ac) = some 12 := by
  decide

/-- S5, the pointer. -/
theorem test_loadind_protected :
    seen (start [3, 300] [(300, 1200)]) (fun t => (t.ac, t.fault)) = some (0, some (.protectionFault 1200 3 0)) := by
  decide

/-- L12. -/
theorem test_loadidxx :
    seen ((start [4, 1200] [(900, 6)]).setX (-300)) (fun t => (t.ac, t.x)) = some (6, -300) := by
  decide

/-- L14. -/
theorem test_loadidxx_wraps :
    seen ((start [4, 2147483647] []).setX 1) (fun t => t.fault) = some (some (.memRangeFault (-2147483648))) := by
  decide

/-- L15. -/
theorem test_loadidxy :
    seen ((start [5, 200] [(199, 8)]).setY (-1)) (fun t => t.ac) = some 8 := by
  decide

/-- S5. -/
theorem test_loadidxy_protected :
    seen ((start [5, 500] []).setY 500) (fun t => (t.pc, t.fault)) = some (2, some (.protectionFault 1000 5 0)) := by
  decide

/-- L17, unchecked. -/
theorem test_loadspx_user :
    seen (start [6] [(1000, 30)]) (fun t => (t.ac, t.fault)) = some (30, none) := by
  decide

/-- L18. -/
theorem test_loadspx_system :
    seen ((startSystem [6] 1998 [(1999, 3)]).setX 1) (fun t => (t.ac, t.userSp)) = some (3, 1000) := by
  decide

/-- L19. -/
theorem test_store :
    seen ((start [7, 10] []).setAc 5) (fun t => (t.cell 10, t.cell 9, t.cell 1)) = some (5, 0, 10) := by
  decide

/-- S3. -/
theorem test_store_protected :
    seen ((start [7, 1500] [(1500, 30)]).setAc 1) (fun t => (t.cell 1500, t.fault, t.running)) =
      some (30, some (.protectionFault 1500 7 0), false) := by
  decide

/-- A2. -/
theorem test_addx :
    seen (((start [10] []).setAc 2147483647).setX 1) (fun t => (t.ac, t.x)) = some (-2147483648, 1) := by
  decide

/-- A4. -/
theorem test_addy :
    seen (((start [11] []).setAc (-3)).setY 3) (fun t => (t.ac, t.y)) = some (0, 3) := by
  decide

/-- A5. -/
theorem test_subx :
    seen (((start [12] []).setAc 7).setX 5) (fun t => (t.ac, t.x)) = some (2, 5) := by
  decide

/-- A7. -/
theorem test_subx_wraps :
    seen ((start [12] []).setX (-2147483648)) (fun t => t.ac) = some (-2147483648) := by
  decide

/-- A8. -/
theorem test_suby :
    seen (((start [13] []).setAc 5).setY 7) (fun t => (t.ac, t.y)) = some (-2, 7) := by
  decide

/-- T1. -/
theorem test_copytox :
    seen (((start [14] []).setAc 4).setX 9) (fun t => (t.x, t.ac)) = some (4, 4) := by
  decide

/-- T2. -/
theorem test_copyfromx :
    seen (((start [15] []).setAc 4).setX 9) (fun t => (t.ac, t.x)) = some (9, 9) := by
  decide

/-- T3. -/
theorem test_copytoy :
    seen ((start [16] []).setAc 4) (fun t => (t.y, t.x)) = some (4, 0) := by
  decide

/-- T4. -/
theorem test_copyfromy :
    seen (((start [17] []).setAc 4).setY (-1)) (fun t => (t.ac, t.y)) = some (-1, -1) := by
  decide

/-- T5. -/
theorem test_copytosp_user :
    seen ((start [18] []).setAc 900) (fun t => (t.userSp, t.systemSp)) = some (900, 2000) := by
  decide

/-- T6. -/
theorem test_copytosp_system :
    seen ((startSystem [18] 1998 []).setAc 1990) (fun t => (t.userSp, t.systemSp)) = some (1000, 1990) := by
  decide

/-- T7. -/
theorem test_copyfromsp_user :
    seen (start [19] []) (fun t => t.ac) = some 1000 := by
  decide

/-- T8. -/
theorem test_copyfromsp_system :
    seen (startSystem [19] 1998 []) (fun t => t.ac) = some 1998 := by
  decide

/-- J4. -/
theorem test_jump :
    seen (start [20, 1500] []) (fun t => (t.pc, t.inSystemMode, t.fault)) = some (1500, false, none) := by
  decide

/-- J3. -/
theorem test_jump_then_fetch_out_of_range :
    seen (next (start [20, 2000] [])) (fun t => (t.pc, t.ir, t.fault)) =
      some (2000, 20, some (.memRangeFault 2000)) := by
  decide

/-- J5. -/
theorem test_jumpifeq_taken :
    seen (start [21, 20] []) (fun t => t.pc) = some 20 := by
  decide

/-- J6. -/
theorem test_jumpifeq_not_taken :
    seen ((start [21, 20] []).setAc (-1)) (fun t => t.pc) = some 2 := by
  decide

/-- J7. -/
theorem test_jumpifne_taken :
    seen ((start [22, 6] []).setAc 3) (fun t => t.pc) = some 6 := by
  decide

/-- J8. -/
theorem test_jumpifne_not_taken :
    seen (start [22, 6] []) (fun t => t.pc) = some 2 := by
  decide

/-- J9. -/
theorem test_call :
    seen (start [23, 11] []) (fun t => (t.userSp, t.cell 999, t.pc)) = some (999, 2, 11) := by
  decide

/-- J10. -/
theorem test_call_out_of_range :
    seen ((start [23, 11] []).setUserSp 0) (fun t => (t.userSp, t.pc, t.fault)) =
      some (-1, 2, some (.memRangeFault (-1))) := by
  decide

/-- J11, at 0. -/
theorem test_ret :
    seen ((start [24] [(998, 8)]).setUserSp 998) (fun t => (t.pc, t.userSp)) = some (8, 999) := by
  decide

/-- J12. -/
theorem test_ret_keeps_the_mode :
    seen (startSystem [24] 1998 [(1998, 1000)]) (fun t => (t.pc, t.systemSp, t.inSystemMode)) =
      some (1000, 1999, true) := by
  decide

/-- K2, unchecked. -/
theorem test_push :
    seen (((start [27] []).setAc 9).setUserSp 1500) (fun t => (t.userSp, t.cell 1499, t.fault)) =
      some (1499, 9, none) := by
  decide

/-- K3. -/
theorem test_push_system :
    seen ((startSystem [27] 1998 []).setAc 7) (fun t => (t.systemSp, t.cell 1997)) = some (1997, 7) := by
  decide

/-- K4. -/
theorem test_pop :
    seen ((start [28] [(999, 9)]).setUserSp 999) (fun t => (t.ac, t.userSp)) = some (9, 1000) := by
  decide

/-- K5. -/
theorem test_pop_out_of_range :
    seen (((start [28] []).setUserSp 2000).setAc 4) (fun t => (t.ac, t.userSp, t.fault)) =
      some (4, 2000, some (.memRangeFault 2000)) := by
  decide

/-- O2. -/
theorem test_put_char :
    seen ((start [9, 2] []).setAc 65) (fun t => (t.output, t.ac)) = some ([⟨.char, 65⟩], 65) := by
  decide

/-- O4. -/
theorem test_put_elsewhere :
    seen ((start [9, 3] []).setAc 65) (fun t => (t.output, t.fault)) = some ([], none) := by
  decide

/-- M2. -/
theorem test_incx :
    seen ((start [25] []).setX 2147483647) (fun t => t.x) = some (-2147483648) := by
  decide

/-- M4. -/
theorem test_decx :
    seen (start [26] []) (fun t => (t.x, t.ac)) = some (-1, 0) := by
  decide

/-- M6. -/
theorem test_get :
    seen ({ start [8] [] with randomNext := [42] }) (fun t => (t.ac, t.draws, t.randomNext)) = some (42, 1, []) := by
  decide

/-- M7, at the lower bound. -/
theorem test_get_least :
    seen ({ start [8] [] with randomNext := [1, 100] }) (fun t => (t.ac, t.randomNext)) = some (1, [100]) := by
  decide

/-- S4. -/
theorem test_int :
    seen (next (start [1, 7, 29] [])) (fun t => (t.pc, t.systemSp, t.cell 1999, t.cell 1998)) =
      some (1500, 1998, 3, 1000) := by
  decide

/-- M9, at 0. -/
theorem test_int_masked :
    seen (startSystem [29] 1998 []) (fun t => (t.pc, t.systemSp, t.cell 1997)) = some (1, 1998, 0) := by
  decide

/-- M10, at 0. -/
theorem test_iret :
    seen (startSystem [30] 1998 [(1998, 990), (1999, 3)]) (fun t => (t.userSp, t.pc, t.systemSp, t.inSystemMode)) =
      some (990, 3, 2000, false) := by
  decide

/-- M13, at 0. -/
theorem test_iret_second_pop_out_of_range :
    seen (startSystem [30] 1999 [(1999, 3)]) (fun t => (t.userSp, t.systemSp, t.fault)) =
      some (3, 2000, some (.memRangeFault 2000)) := by
  decide

/-- M14, at 0. -/
theorem test_halt :
    seen (start [50] []) (fun t => (t.running, t.pc, t.fault)) = some (false, 1, none) := by
  decide

/-- U1. -/
theorem test_unknown_opcode :
    seen (start [0] []) (fun t => (t.fault, t.pc, t.ir, t.countdown)) =
      some (some (.unknownOpcode 0 0), 1, 0, 999) := by
  decide

/-- U7. -/
theorem test_operand_fetch_out_of_range :
    seen ((start [] [(1999, 1)]).setPc 1999) (fun t => (t.fault, t.pc, t.ir)) =
      some (some (.memRangeFault 2000), 2000, 1) := by
  decide

/-- X4. -/
theorem test_timer_then_iret :
    seen (((start [] [(4, 50), (1000, 30)]).setPc 4).setCountdown 1) (fun t => (t.pc, t.running, t.countdown, t.cell 1999)) =
      some (4, true, 1000, 4) := by
  decide

/-- X5. -/
theorem test_timer_then_unknown_opcode :
    seen (((start [] []).setPc 4).setCountdown 1) (fun t => (t.fault, t.inSystemMode, t.cell 1999)) =
      some (some (.unknownOpcode 0 1000), true, 4) := by
  decide

/-- X3. -/
theorem test_timer_frozen_in_system_mode :
    seen ((startSystem [30] 1998 []).setCountdown 1) (fun t => t.countdown) = some 1 := by
  decide

/-- X6. -/
theorem test_timer_not_masked :
    seen (((start [] [(1000, 27)]).setCountdown 1).setMode false false) (fun t => (t.inSystemMode, t.systemSp, t.pc)) =
      some (true, 1997, 1001) := by
  decide

/-! ### Every statement with hypotheses has a state and operands that meet all of them -/

/-- The state an instruction's meaning ends in. -/
def ended (i : Instr) (s : State) : State :=
  match exec i s with
  | .next t => t
  | .fault _ => s
  | .refused _ => s

/-- The state a delivery ends in. -/
def delivered (target : Int) (s : State) : State :=
  match deliver target s with
  | .ok _ t => t
  | .stopped t => t

/-- User mode, with a few cells listed. -/
def user : State := start [] [(10, 5), (300, 400), (301, 1000), (302, 2000), (400, 12), (999, 9), (1500, 30)]

/-- System mode, with a few cells listed. -/
def system : State := startSystem [] 1998 [(10, 5), (300, 1500), (1500, 30), (1998, 1000), (1999, 3)]

theorem witness_DecodeOfEncode : defaultOpc.Injective := by decide

theorem witness_EncodeOfDecode : decode defaultOpc [7, 10, 50] = .ok (.store 10, [50]) := by decide

theorem witness_StepRunsDecodedInstruction :
    (start [7, 10] []).running = true ∧ timerFires (start [7, 10] []) = false ∧
      decode (start [7, 10] []).cfg.opc (codeCells (start [7, 10] [])) = .ok (.store 10, []) := by decide

/-- A user-step with the countdown at 1 and the handler `1000: PUSH`. -/
def ticking : State := (start [25] [(1000, 27)]).setCountdown 1

theorem witness_StepWithTimerRunsHandler :
    ticking.running = true ∧ ticking.inSystemMode = false ∧ ticking.word (ticking.countdown - 1) ≤ 0 ∧
      deliver ticking.cfg.timerVector { ticking with countdown := ticking.word (ticking.countdown - 1) } =
        .ok () (delivered 1000 (ticking.setCountdown 0)) ∧
      decode ticking.cfg.opc (codeCells (delivered 1000 (ticking.setCountdown 0))) = .ok (.push, [0]) := by
  decide +kernel

theorem witness_StoppedCoreStaysAsItIs : State.reset.halt.running = false := by decide

theorem witness_StopsExactlyByFaultOrEnd_end :
    (start [50] []).running = true ∧ (start [50] []).fault = none ∧
      step (start [50] []) = .next (next (start [50] [])) ∧ (next (start [50] [])).running = false :=
  ⟨rfl, rfl, rfl, rfl⟩

theorem witness_StopsExactlyByFaultOrEnd_fault :
    (start [0] []).running = true ∧ (start [0] []).fault = none ∧
      step (start [0] []) = .next (next (start [0] [])) ∧ (next (start [0] [])).running = false :=
  ⟨rfl, rfl, rfl, rfl⟩

theorem witness_StopsExactlyByFaultOrEnd_neither :
    (start [25] []).running = true ∧ (start [25] []).fault = none ∧
      step (start [25] []) = .next (next (start [25] [])) ∧ (next (start [25] [])).running = true :=
  ⟨rfl, rfl, rfl, rfl⟩

theorem witness_UnknownOpcodeStops :
    (start [31] []).running = true ∧ timerPhase (start [31] []) = .ok () ((start [31] []).setCountdown 999) ∧
      inRange (start [31] []).cfg 0 = true ∧ (start [31] []).cell 0 ∉ (start [31] []).cfg.opc.numbers :=
  ⟨rfl, rfl, by decide, by decide⟩

/-- X5: the timer fires, and the handler's first cell is no opcode. -/
def handlerUnknown : State := (start [25] []).setCountdown 1

theorem witness_UnknownOpcodeStops_handler :
    handlerUnknown.running = true ∧
      timerPhase handlerUnknown = .ok () ((delivered 1000 (handlerUnknown.setCountdown 0)).setCountdown 1000) ∧
      inRange handlerUnknown.cfg (delivered 1000 (handlerUnknown.setCountdown 0)).pc = true ∧
      (delivered 1000 (handlerUnknown.setCountdown 0)).cell 1000 ∉ handlerUnknown.cfg.opc.numbers :=
  ⟨rfl, rfl, by decide, by decide⟩

/-- The opcode's address just above and just below the valid ones. -/
theorem witness_FetchOutOfRangeStops_opcode :
    ((user.setPc 2000).running = true ∧ timerPhase (user.setPc 2000) = .ok () ((user.setPc 2000).setCountdown 999) ∧
      inRange user.cfg ((user.setPc 2000).setCountdown 999).pc = false) ∧
    (user.setPc (-1)).running = true ∧ timerPhase (user.setPc (-1)) = .ok () ((user.setPc (-1)).setCountdown 999) ∧
      inRange user.cfg ((user.setPc (-1)).setCountdown 999).pc = false :=
  ⟨⟨rfl, rfl, by decide⟩, rfl, rfl, by decide⟩

/-- A STORE in the last cell. -/
def storeAtTop : State := (start [] [(1999, 7)]).setPc 1999

theorem witness_FetchOutOfRangeStops_operand :
    storeAtTop.running = true ∧ timerPhase storeAtTop = .ok () (storeAtTop.setCountdown 999) ∧
      inRange storeAtTop.cfg 1999 = true ∧ decodeOp storeAtTop.cfg.opc ((storeAtTop.setCountdown 999).cell 1999) = some .store ∧
      Op.store.format = .O ∧ inRange storeAtTop.cfg (storeAtTop.word (1999 + 1)) = false :=
  ⟨rfl, rfl, by decide, by decide, rfl, by decide⟩

/-- The timer fires with `TIMER_VECTOR` at the last cell, where the delivery has just stored the saved `PC`, the number of
STORE. -/
def handlerAtTop : State :=
  { user with cfg := { defaultParams with timerVector := 1999 }, countdown := 1, pc := 7 }

theorem witness_FetchOutOfRangeStops_handler :
    handlerAtTop.cfg.TimerVectorOk ∧ handlerAtTop.running = true ∧
      timerPhase handlerAtTop = .ok () ((delivered 1999 (handlerAtTop.setCountdown 0)).setCountdown 1000) ∧
      inRange handlerAtTop.cfg 1999 = true ∧
      decodeOp handlerAtTop.cfg.opc ((delivered 1999 (handlerAtTop.setCountdown 0)).cell 1999) = some .store ∧
      Op.store.format = .O ∧ inRange handlerAtTop.cfg (handlerAtTop.word (1999 + 1)) = false :=
  ⟨by decide, rfl, rfl, by decide, by decide, rfl, by decide⟩

/-- `SystemSP` at 0 and just above the memory: the first store's cell does not exist. -/
theorem witness_DeliveryOutOfRangeStops_first :
    (inRange (ticking.setSystemSp 0).cfg ((ticking.setSystemSp 0).word ((ticking.setSystemSp 0).systemSp - 1)) = false ∧
      (ticking.setSystemSp 0).interruptsEnabled = true ∧ (ticking.setSystemSp 0).running = true ∧
      timerFires (ticking.setSystemSp 0) = true) ∧
    inRange (ticking.setSystemSp 2001).cfg ((ticking.setSystemSp 2001).word ((ticking.setSystemSp 2001).systemSp - 1)) = false ∧
      timerFires (ticking.setSystemSp 2001) = true := by
  decide

/-- `SystemSP` at 1: the first store's cell exists, the second's does not. -/
theorem witness_DeliveryOutOfRangeStops_second :
    Memory.wf (ticking.setSystemSp 1).cfg.memInit (ticking.setSystemSp 1).mem ∧
      inRange (ticking.setSystemSp 1).cfg ((ticking.setSystemSp 1).word ((ticking.setSystemSp 1).systemSp - 1)) = true ∧
      inRange (ticking.setSystemSp 1).cfg ((ticking.setSystemSp 1).word ((ticking.setSystemSp 1).systemSp - 2)) = false ∧
      (ticking.setSystemSp 1).interruptsEnabled = true ∧ (ticking.setSystemSp 1).running = true ∧
      timerFires (ticking.setSystemSp 1) = true := by
  decide

theorem witness_CountdownPerStep_stopped :
    step user.halt = .next user.halt ∧ (user.halt.running = false ∨ user.halt.inSystemMode = true) := ⟨rfl, .inl rfl⟩

theorem witness_CountdownPerStep_system :
    step system = .next (next system) ∧ (system.running = false ∨ system.inSystemMode = true) := ⟨rfl, .inr rfl⟩

theorem witness_CountdownPerStep_tick :
    step (ticking.setCountdown 2) = .next (next (ticking.setCountdown 2)) ∧ (ticking.setCountdown 2).running = true ∧
      (ticking.setCountdown 2).inSystemMode = false ∧ 0 < (ticking.setCountdown 2).word ((ticking.setCountdown 2).countdown - 1) :=
  ⟨rfl, rfl, rfl, by decide⟩

theorem witness_CountdownPerStep_reload :
    step ticking = .next (next ticking) ∧ ticking.running = true ∧ ticking.inSystemMode = false ∧
      ticking.word (ticking.countdown - 1) ≤ 0 ∧ inRange ticking.cfg (ticking.word (ticking.systemSp - 1)) = true ∧
      inRange ticking.cfg (ticking.word (ticking.systemSp - 2)) = true :=
  ⟨rfl, rfl, rfl, by decide, by decide, by decide⟩

/-- The invariant of user mode, the countdown at its least value, so that the timer fires in the next step. -/
theorem witness_TimerPeriodicity : Inv ticking ∧ ticking.inSystemMode = false ∧ timerFires ticking = true :=
  ⟨⟨test_default_params_well_formed, by decide, by decide, by decide, rfl, fun _ => rfl, by decide, fun h => absurd rfl h⟩,
    rfl, by decide⟩

theorem witness_StepKeepsInvariant_user : Inv ticking ∧ step ticking = .next (next ticking) :=
  ⟨witness_TimerPeriodicity.1, rfl⟩

theorem witness_StepKeepsInvariant_system : Inv system ∧ step system = .next (next system) :=
  ⟨⟨test_default_params_well_formed, by decide, by decide, by decide, rfl, fun h => absurd h (by decide), by decide,
    fun h => absurd rfl h⟩, rfl⟩

/-- An image that lists the first and the last cell. -/
theorem witness_ResetMeetsInvariant :
    defaultParams.WellFormed ∧ Memory.wf 0 [(0, 1), (1999, 30)] ∧ Memory.fits defaultParams [(0, 1), (1999, 30)] :=
  ⟨test_default_params_well_formed, by decide, by decide⟩

theorem witness_StepKeepsMemoryForm :
    Memory.wf 0 ((start [7, 10] []).setAc 5).mem ∧
      step ((start [7, 10] []).setAc 5) = .next (next ((start [7, 10] []).setAc 5)) := ⟨by decide, rfl⟩

theorem witness_StepKeepsMaskOppositeToMode :
    (start [29] []).interruptsEnabled = !(start [29] []).inSystemMode ∧
      step (start [29] []) = .next (next (start [29] [])) ∧ (next (start [29] [])).inSystemMode = true := ⟨rfl, rfl, rfl⟩

theorem witness_StepKeepsConfiguration : step ticking = .next (next ticking) := rfl

theorem witness_OutputOnlyByPut :
    step (start [9, 1] []) = .next (next (start [9, 1] [])) ∧ (next (start [9, 1] [])).output ≠ (start [9, 1] []).output :=
  ⟨rfl, by decide⟩

theorem witness_DrawsOnlyByGet :
    step { start [8] [] with randomNext := [42] } = .next (next { start [8] [] with randomNext := [42] }) ∧
      (next { start [8] [] with randomNext := [42] }).draws = 1 := ⟨rfl, rfl⟩

theorem witness_SystemModeEnteredOnlyByDelivery_timer :
    step ticking = .next (next ticking) ∧ ticking.inSystemMode = false ∧ (next ticking).inSystemMode = true :=
  ⟨rfl, rfl, rfl⟩

theorem witness_SystemModeEnteredOnlyByDelivery_int :
    step (start [29] []) = .next (next (start [29] [])) ∧ (start [29] []).inSystemMode = false ∧
      (next (start [29] [])).inSystemMode = true := ⟨rfl, rfl, rfl⟩

theorem witness_SystemModeLeftOnlyByIret :
    step (startSystem [30] 1998 []) = .next (next (startSystem [30] 1998 [])) ∧
      (startSystem [30] 1998 []).inSystemMode = true ∧ (next (startSystem [30] 1998 [])).inSystemMode = false :=
  ⟨rfl, rfl, rfl⟩

theorem witness_StackPointersAreBanked_user :
    exec .push user = .next (ended .push user) ∧ user.inSystemMode = false ∧ Instr.push ≠ .int := ⟨rfl, rfl, by decide⟩

theorem witness_StackPointersAreBanked_system :
    exec .push system = .next (ended .push system) ∧ system.inSystemMode = true ∧ Instr.push ≠ .iret :=
  ⟨rfl, rfl, by decide⟩

theorem witness_OnlyControlTransfersWritePc :
    exec .push user = .next (ended .push user) ∧
      Instr.push.op ∉ [Op.jump, .jumpifeq, .jumpifne, .call, .ret, .int, .iret] := ⟨rfl, by decide⟩

/-- A write to the first cell, a read of the last. -/
theorem witness_ReadGivesLatestWrite :
    Memory.wf user.cfg.memInit user.mem ∧ memWrite 0 7 user = .ok () (user.setMem (writeCell 0 user.mem 0 7)) ∧
      (1999 : Int) ≠ 0 ∧ inRange user.cfg 1999 = true := by decide

/-- The first and the last address of the system zone. -/
theorem witness_CheckedAccessFaultsInUserMode_direct :
    user.inSystemMode = false ∧ inSystemZone user.cfg 1000 = true ∧ inSystemZone user.cfg 1999 = true := by decide

theorem witness_CheckedAccessFaultsInUserMode_indexed :
    ((user.setX 10).setY (-1)).inSystemMode = false ∧ inSystemZone user.cfg (user.word (990 + (user.setX 10).x)) = true ∧
      inSystemZone user.cfg (user.word (2000 + (user.setY (-1)).y)) = true := by decide

/-- The pointer cell 301 holds the first address of the system zone. -/
theorem witness_CheckedAccessFaultsInUserMode_pointer :
    user.inSystemMode = false ∧ inSystemZone user.cfg 301 = false ∧ inRange user.cfg 301 = true ∧
      inSystemZone user.cfg (user.cell (301 : Int).toNat) = true := by decide

/-- The first address above the memory and the one below it. -/
theorem witness_DataAccessOutOfRangeStops_direct :
    Allowed user 2000 ∧ inRange user.cfg 2000 = false ∧ Allowed user (-1) ∧ inRange user.cfg (-1) = false := by decide

theorem witness_DataAccessOutOfRangeStops_indexed :
    Allowed user (user.word (2000 + user.x)) ∧ inRange user.cfg (user.word (2000 + user.x)) = false ∧
      Allowed user (user.word (-1 + user.y)) ∧ inRange user.cfg (user.word (-1 + user.y)) = false := by decide

/-- The pointer cell 302 holds the first address above the memory. -/
theorem witness_DataAccessOutOfRangeStops_pointer :
    Allowed user 302 ∧ inRange user.cfg 302 = true ∧ Allowed user (user.cell (302 : Int).toNat) ∧
      inRange user.cfg (user.cell (302 : Int).toNat) = false := by decide

theorem witness_DataAccessOutOfRangeStops_stack :
    inRange (user.setX 1000).cfg ((user.setX 1000).word (activeSp (user.setX 1000) + (user.setX 1000).x)) = false := by decide

theorem witness_UserModeWritesSystemZoneOnlyByStackOrTrap :
    user.inSystemMode = false ∧ (Instr.store 10).op ∉ [Op.push, .call, .int] ∧
      exec (.store 10) user = .next (ended (.store 10) user) ∧ user.cfg.userSize ≤ 1000 ∧
      (1000 : Int) < user.cfg.systemSize := ⟨rfl, by decide, rfl, by decide, by decide⟩

/-- Two memories that differ in cell 1500 only. -/
theorem witness_UserModeMeaningIgnoresSystemZone :
    user.inSystemMode = false ∧ (Instr.loada 10).op ∉ [Op.loadspx, .pop, .ret] ∧ Memory.wf user.cfg.memInit user.mem ∧
      Memory.wf user.cfg.memInit (writeCell 0 user.mem 1500 31) ∧
      (∀ a : Nat, (a : Int) < user.cfg.userSize →
        readCell user.cfg.memInit (writeCell 0 user.mem 1500 31) a = user.cell a) ∧
      readCell 0 (writeCell 0 user.mem 1500 31) 1500 ≠ user.cell 1500 ∧
      exec (.loada 10) user = .next (ended (.loada 10) user) :=
  ⟨rfl, by decide, by decide, by decide,
    fun a h => readCell_writeCell_other _ _ (fun e => absurd (e ▸ h) (by decide)), by decide, rfl⟩

/-- The last address of the user zone in user mode, the last of memory in system mode. -/
theorem witness_CheckedLoadsReadTheirAddress :
    (Allowed user 999 ∧ inRange user.cfg 999 = true) ∧ (Allowed system 1999 ∧ inRange system.cfg 1999 = true) ∧
      (Allowed user (user.word (989 + (user.setX 10).x)) ∧ inRange user.cfg (user.word (989 + (user.setX 10).x)) = true) ∧
      Allowed user (user.word (1 + (user.setY (-1)).y)) ∧ inRange user.cfg (user.word (1 + (user.setY (-1)).y)) = true := by
  decide

theorem witness_LoadindReadsThroughPointer :
    Allowed user 300 ∧ inRange user.cfg 300 = true ∧ Allowed user (user.cell (300 : Int).toNat) ∧
      inRange user.cfg (user.cell (300 : Int).toNat) = true := by decide

theorem witness_LoadspxReadsStackRelative :
    (user.inSystemMode = false ∧ inRange user.cfg (user.word (user.userSp + user.x)) = true) ∧
      system.inSystemMode = true ∧
      inRange system.cfg (system.word ((system.setX 1).systemSp + (system.setX 1).x)) = true := by
  decide

theorem witness_StoreWritesOnlyItsCell :
    Memory.wf user.cfg.memInit user.mem ∧ (Allowed user 999 ∧ inRange user.cfg 999 = true) ∧
      Memory.wf system.cfg.memInit system.mem ∧ Allowed system 1999 ∧ inRange system.cfg 1999 = true := by decide

theorem witness_CopiesUseActiveStackPointer : user.inSystemMode = false ∧ system.inSystemMode = true := by decide

/-- The least stack pointers that a push of one word can start from, and the greatest. -/
theorem witness_CallAndPushStoreOnActiveStack :
    ((Memory.wf (user.setUserSp 1).cfg.memInit (user.setUserSp 1).mem ∧ (user.setUserSp 1).inSystemMode = false ∧
      inRange (user.setUserSp 1).cfg ((user.setUserSp 1).word ((user.setUserSp 1).userSp - 1)) = true) ∧
    (Memory.wf (user.setUserSp 2000).cfg.memInit (user.setUserSp 2000).mem ∧ (user.setUserSp 2000).inSystemMode = false ∧
      inRange (user.setUserSp 2000).cfg ((user.setUserSp 2000).word ((user.setUserSp 2000).userSp - 1)) = true)) ∧
    (Memory.wf (system.setSystemSp 1).cfg.memInit (system.setSystemSp 1).mem ∧ (system.setSystemSp 1).inSystemMode = true ∧
      inRange (system.setSystemSp 1).cfg ((system.setSystemSp 1).word ((system.setSystemSp 1).systemSp - 1)) = true) ∧
    (Memory.wf (system.setSystemSp 2000).cfg.memInit (system.setSystemSp 2000).mem ∧ (system.setSystemSp 2000).inSystemMode = true ∧
      inRange (system.setSystemSp 2000).cfg ((system.setSystemSp 2000).word ((system.setSystemSp 2000).systemSp - 1)) = true) := by
  decide

theorem witness_RetAndPopReadActiveStack :
    (((user.setUserSp 0).inSystemMode = false ∧
      inRange (user.setUserSp 0).cfg (user.setUserSp 0).userSp = true) ∧
    ((user.setUserSp 1999).inSystemMode = false ∧
      inRange (user.setUserSp 1999).cfg (user.setUserSp 1999).userSp = true)) ∧
    ((system.setSystemSp 0).inSystemMode = true ∧
      inRange (system.setSystemSp 0).cfg (system.setSystemSp 0).systemSp = true) ∧
    ((system.setSystemSp 1999).inSystemMode = true ∧
      inRange (system.setSystemSp 1999).cfg (system.setSystemSp 1999).systemSp = true) := by
  decide

theorem witness_StackAccessOutOfRangeStops_push :
    (((user.setUserSp 0).inSystemMode = false ∧
      inRange (user.setUserSp 0).cfg ((user.setUserSp 0).word ((user.setUserSp 0).userSp - 1)) = false) ∧
    ((user.setUserSp 2001).inSystemMode = false ∧
      inRange (user.setUserSp 2001).cfg ((user.setUserSp 2001).word ((user.setUserSp 2001).userSp - 1)) = false)) ∧
    ((system.setSystemSp 0).inSystemMode = true ∧
      inRange (system.setSystemSp 0).cfg ((system.setSystemSp 0).word ((system.setSystemSp 0).systemSp - 1)) = false) ∧
    ((system.setSystemSp 2001).inSystemMode = true ∧
      inRange (system.setSystemSp 2001).cfg ((system.setSystemSp 2001).word ((system.setSystemSp 2001).systemSp - 1)) = false) := by
  decide

theorem witness_StackAccessOutOfRangeStops_pop :
    (inRange (user.setUserSp (-1)).cfg (activeSp (user.setUserSp (-1))) = false) ∧
    (inRange (user.setUserSp 2000).cfg (activeSp (user.setUserSp 2000)) = false) := by
  decide

/-- Between the PUSH and the POP the accumulator was overwritten. -/
theorem witness_PushThenPopRestores :
    Memory.wf user.cfg.memInit user.mem ∧ IsWord user.cfg.xlen (activeSp user) ∧
      inRange user.cfg (user.word (activeSp user - 1)) = true ∧ exec .push user = .next (ended .push user) ∧
      ((ended .push user).setAc 77).mem = (ended .push user).mem ∧ ((ended .push user).setAc 77).cfg = (ended .push user).cfg ∧
      ((ended .push user).setAc 77).inSystemMode = (ended .push user).inSystemMode ∧
      ((ended .push user).setAc 77).userSp = (ended .push user).userSp ∧
      ((ended .push user).setAc 77).systemSp = (ended .push user).systemSp :=
  ⟨by decide, by decide, by decide, rfl, rfl, rfl, rfl, rfl, rfl⟩

theorem witness_CallThenRetResumes :
    Memory.wf user.cfg.memInit user.mem ∧ IsWord user.cfg.xlen (activeSp user) ∧
      inRange user.cfg (user.word (activeSp user - 1)) = true ∧ exec (.call 5) user = .next (ended (.call 5) user) ∧
      ((ended (.call 5) user).setPc 6).mem = (ended (.call 5) user).mem ∧
      ((ended (.call 5) user).setPc 6).cfg = (ended (.call 5) user).cfg ∧
      ((ended (.call 5) user).setPc 6).inSystemMode = (ended (.call 5) user).inSystemMode ∧
      ((ended (.call 5) user).setPc 6).userSp = (ended (.call 5) user).userSp ∧
      ((ended (.call 5) user).setPc 6).systemSp = (ended (.call 5) user).systemSp :=
  ⟨by decide, by decide, by decide, rfl, rfl, rfl, rfl, rfl, rfl⟩

/-- One port for each clause: the integer port, the character port, and neither. -/
theorem witness_PutEmitsSelectedKind :
    (1 : Int) = user.cfg.portInt ∧ ((2 : Int) ≠ user.cfg.portInt ∧ (2 : Int) = user.cfg.portChar) ∧
      (3 : Int) ≠ user.cfg.portInt ∧ (3 : Int) ≠ user.cfg.portChar := by
  decide

/-- Both bounds as fixed words. -/
theorem witness_GetDrawsWithinBounds :
    user.cfg.randMin ≤ user.cfg.randMax ∧
      ({ user with randomNext := [1] }.randomNext.head? = some 1 ∧
        user.cfg.randMin ≤ (1 : Int) ∧ (1 : Int) ≤ user.cfg.randMax) ∧
    ({ user with randomNext := [100] }.randomNext.head? = some 100 ∧
        user.cfg.randMin ≤ (100 : Int) ∧ (100 : Int) ≤ user.cfg.randMax) := by
  decide

theorem witness_EndHaltsTheCore_user :
    (start [50] []).running = true ∧ timerPhase (start [50] []) = .ok () ((start [50] []).setCountdown 999) ∧
      inRange (start [50] []).cfg 0 = true ∧ (start [50] []).cell 0 = (start [50] []).cfg.opc.halt :=
  ⟨rfl, rfl, by decide, by decide⟩

/-- END is the first instruction of the timer's handler. -/
def handlerEnds : State := (start [25] [(1000, 50)]).setCountdown 1

theorem witness_EndHaltsTheCore_handler :
    handlerEnds.running = true ∧
      timerPhase handlerEnds = .ok () ((delivered 1000 (handlerEnds.setCountdown 0)).setCountdown 1000) ∧
      inRange handlerEnds.cfg (delivered 1000 (handlerEnds.setCountdown 0)).pc = true ∧
      (delivered 1000 (handlerEnds.setCountdown 0)).cell 1000 = handlerEnds.cfg.opc.halt :=
  ⟨rfl, rfl, by decide, by decide⟩

/-- The empty system stack, and the least `SystemSP` that has room for two words. -/
theorem witness_DeliverSavesPcAndUserSp :
    (user.cfg.WidthOk ∧ Memory.wf user.cfg.memInit user.mem ∧ inRange user.cfg (user.word (user.systemSp - 1)) = true ∧
      inRange user.cfg (user.word (user.systemSp - 2)) = true) ∧
    (user.setSystemSp 2).cfg.WidthOk ∧ Memory.wf (user.setSystemSp 2).cfg.memInit (user.setSystemSp 2).mem ∧
      inRange (user.setSystemSp 2).cfg ((user.setSystemSp 2).word ((user.setSystemSp 2).systemSp - 1)) = true ∧
      inRange (user.setSystemSp 2).cfg ((user.setSystemSp 2).word ((user.setSystemSp 2).systemSp - 2)) = true := by
  decide

theorem witness_IntDeliversToSyscallVector :
    user.cfg.WidthOk ∧ Memory.wf user.cfg.memInit user.mem ∧ user.interruptsEnabled = true ∧
      inRange user.cfg (user.word (user.systemSp - 1)) = true ∧
      inRange user.cfg (user.word (user.systemSp - 2)) = true := by decide

theorem witness_MaskedIntAndUserIretDoNothing : system.interruptsEnabled = false ∧ user.inSystemMode = false := by decide

theorem witness_IretReturnsToUserMode :
    system.inSystemMode = true ∧ inRange system.cfg system.systemSp = true ∧
      inRange system.cfg (system.word (system.systemSp + 1)) = true := by decide

/-- `SystemSP` just above the memory, and at its last cell. -/
theorem witness_IretOutOfRangeStops :
    ((system.setSystemSp 2000).inSystemMode = true ∧
      inRange (system.setSystemSp 2000).cfg (system.setSystemSp 2000).systemSp = false) ∧
    (system.setSystemSp 1999).inSystemMode = true ∧
      inRange (system.setSystemSp 1999).cfg (system.setSystemSp 1999).systemSp = true ∧
      inRange (system.setSystemSp 1999).cfg ((system.setSystemSp 1999).word ((system.setSystemSp 1999).systemSp + 1)) = false := by
  decide

/-- A handler that overwrote `AC` and nothing else. -/
theorem witness_InterruptRoundTrip :
    user.cfg.WidthOk ∧ Memory.wf user.cfg.memInit user.mem ∧ deliver 1500 user = .ok () (delivered 1500 user) ∧
      ((delivered 1500 user).setAc 77).cfg = user.cfg ∧ ((delivered 1500 user).setAc 77).inSystemMode = true ∧
      ((delivered 1500 user).setAc 77).systemSp = (delivered 1500 user).systemSp ∧
      ((delivered 1500 user).setAc 77).cell (user.word (user.systemSp - 1)).toNat =
        (delivered 1500 user).cell (user.word (user.systemSp - 1)).toNat ∧
      ((delivered 1500 user).setAc 77).cell (user.word (user.systemSp - 2)).toNat =
        (delivered 1500 user).cell (user.word (user.systemSp - 2)).toNat := by
  decide
end Sys2Proof.Tests
end

section
/-! PROOF. The loads and the store (spec/41_load_store.md). -/

namespace Sys2Proof.Machine

/-- LOADV (R70): its arm of `exec` neither checks the operand nor reads memory, so it completes from every state. -/
theorem exec_loadv (v : Int) (s : State) : exec (.loadv v) s = .next (s.setAc v) := rfl

/-- LOADV is of format O (R51): its opcode number, then the operand as it is. -/
theorem encode_loadv (m : OpcMap) (v : Int) : encode m (.loadv v) = [m.loadv, v] := rfl

/-- Settles O32: the meaning of LOADV, with `State.setAc` the update of `ac` alone, and its encoding. -/
theorem loadvLoadsItsOperand : Obligations.LoadvLoadsItsOperand := by
  intro s v m
  exact ⟨exec_loadv v s, encode_loadv m v⟩

end Sys2Proof.Machine
end

section
/-! PROOF. Arithmetic and register transfer (spec/42_arith_transfer.md). -/

namespace Sys2Proof.Machine

/-- Format N (R51): an instruction without an operand cell is its opcode number alone. -/
theorem encode_of_operand?_eq_none {m : OpcMap} {i : Instr} (h : i.operand? = none) : encode m i = [m.num i.op] := by
  simp [encode, h]

/-! Each meaning is one update of one register (`State.setAc`, `setX`, `setY`), from every state: it reads registers only
and checks nothing. -/

/-- ADDX (R80). -/
theorem exec_addx (s : State) : exec .addx s = .next (s.setAc (s.word (s.ac + s.x))) := rfl

/-- ADDY (R81). -/
theorem exec_addy (s : State) : exec .addy s = .next (s.setAc (s.word (s.ac + s.y))) := rfl

/-- SUBX (R82): `AC` is the minuend. -/
theorem exec_subx (s : State) : exec .subx s = .next (s.setAc (s.word (s.ac - s.x))) := rfl

/-- SUBY (R83): `AC` is the minuend. -/
theorem exec_suby (s : State) : exec .suby s = .next (s.setAc (s.word (s.ac - s.y))) := rfl

/-- COPYTOX (R84). -/
theorem exec_copytox (s : State) : exec .copytox s = .next (s.setX s.ac) := rfl

/-- COPYFROMX (R85). -/
theorem exec_copyfromx (s : State) : exec .copyfromx s = .next (s.setAc s.x) := rfl

/-- COPYTOY (R86). -/
theorem exec_copytoy (s : State) : exec .copytoy s = .next (s.setY s.ac) := rfl

/-- COPYFROMY (R87). -/
theorem exec_copyfromy (s : State) : exec .copyfromy s = .next (s.setAc s.y) := rfl

/-- Settles O37, one pair per instruction: its meaning, an update of `AC` alone, and its one cell. -/
theorem arithmeticWrapsIntoAc : Obligations.ArithmeticWrapsIntoAc := by
  intro s m
  refine ⟨⟨exec_addx s, ?addx⟩, ⟨exec_addy s, ?addy⟩, ⟨exec_subx s, ?subx⟩, ⟨exec_suby s, ?suby⟩⟩
  all_goals exact encode_of_operand?_eq_none rfl

/-- Settles O39, one pair per instruction: its meaning, an update of the destination alone, and its one cell. -/
theorem copiesMoveOneRegister : Obligations.CopiesMoveOneRegister := by
  intro s m
  refine ⟨⟨exec_copytox s, ?copytox⟩, ⟨exec_copyfromx s, ?copyfromx⟩, ⟨exec_copytoy s, ?copytoy⟩,
    ⟨exec_copyfromy s, ?copyfromy⟩⟩
  all_goals exact encode_of_operand?_eq_none rfl

end Sys2Proof.Machine
end

section
/-! PROOF. Control transfer (spec/43_control_stack.md). -/

namespace Sys2Proof.Machine

/-- Format O (R51): an instruction with an operand cell is its opcode number, then that cell as it is. -/
theorem encode_of_operand?_eq_some {m : OpcMap} {i : Instr} {v : Int} (h : i.operand? = some v) :
    encode m i = [m.num i.op, v] := by
  simp [encode, h]

/-- JUMP (R92): the target is not checked. -/
theorem exec_jump (a : Int) (s : State) : exec (.jump a) s = .next (s.setPc a) := rfl

/-- JUMPIFEQ, taken (R93). -/
theorem exec_jumpifeq_of_ac_eq_zero (a : Int) {s : State} (h : s.ac = 0) :
    exec (.jumpifeq a) s = .next (s.setPc a) :=
  congrArg _ (if_pos (acIsZero_iff.2 h))

/-- JUMPIFEQ, not taken (R93): `PC` stays after the operand, where the fetch left it. -/
theorem exec_jumpifeq_of_ac_ne_zero (a : Int) {s : State} (h : s.ac ≠ 0) : exec (.jumpifeq a) s = .next s :=
  congrArg _ (if_neg (mt acIsZero_iff.1 h))

/-- JUMPIFNE, not taken (R94): `PC` stays after the operand, where the fetch left it. -/
theorem exec_jumpifne_of_ac_eq_zero (a : Int) {s : State} (h : s.ac = 0) : exec (.jumpifne a) s = .next s :=
  congrArg _ (if_pos (acIsZero_iff.2 h))

/-- JUMPIFNE, taken (R94). -/
theorem exec_jumpifne_of_ac_ne_zero (a : Int) {s : State} (h : s.ac ≠ 0) :
    exec (.jumpifne a) s = .next (s.setPc a) :=
  congrArg _ (if_neg (mt acIsZero_iff.1 h))

/-- Settles O41: the meanings by whether `AC` is zero, with `State.setPc` the update of `pc` alone, and the two cells of
each jump. -/
theorem jumpsWritePcByAc : Obligations.JumpsWritePcByAc := by
  intro s a m
  refine ⟨⟨exec_jump a s, ?jump⟩, ⟨?jumpifeqMeaning, ?jumpifeq⟩, ⟨?jumpifneMeaning, ?jumpifne⟩⟩
  case jumpifeqMeaning =>
    by_cases h : s.ac = 0
    · simp only [exec_jumpifeq_of_ac_eq_zero a h, if_pos h, State.setPc]
    · simp only [exec_jumpifeq_of_ac_ne_zero a h, if_neg h]
  case jumpifneMeaning =>
    by_cases h : s.ac = 0
    · simp only [exec_jumpifne_of_ac_eq_zero a h, if_pos h]
    · simp only [exec_jumpifne_of_ac_ne_zero a h, if_neg h, State.setPc]
  all_goals exact encode_of_operand?_eq_some rfl

end Sys2Proof.Machine
end

section
/-! PROOF. Miscellaneous instructions (spec/45_misc.md). -/

namespace Sys2Proof.Machine

/-- INCX (R105). -/
theorem exec_incx (s : State) : exec .incx s = .next (s.setX (s.word (s.x + 1))) := rfl

/-- DECX (R106). -/
theorem exec_decx (s : State) : exec .decx s = .next (s.setX (s.word (s.x - 1))) := rfl

/-- Settles O38, one pair per instruction: its meaning, an update of `X` alone (`State.setX`), and its one cell. -/
theorem incxDecxWrap : Obligations.IncxDecxWrap := by
  intro s m
  refine ⟨⟨exec_incx s, ?incx⟩, ⟨exec_decx s, ?decx⟩⟩
  all_goals exact encode_of_operand?_eq_none rfl

end Sys2Proof.Machine
end

section
/-! PROOF. Encoding and decoding (spec/30_encoding.md). -/

namespace Sys2Proof

/-! The table of opcode numbers. -/

/-- The 31 numbers in the order of R53 are those of the search order, END put last. -/
theorem numbers_eq_map_num (m : OpcMap) : m.numbers = (Op.searchOrder.rotate 1).map m.num := rfl

/-- A cell is one of the 31 numbers exactly when some opcode has it. -/
theorem mem_numbers_iff {m : OpcMap} {w : Int} : w ∈ m.numbers ↔ ∃ o, m.num o = w := by
  simp [numbers_eq_map_num, List.mem_rotate, mem_searchOrder]

/-- Under an injective map (R5) an opcode is known by its number. -/
theorem num_inj {m : OpcMap} (hm : m.Injective) {o p : Op} (h : m.num o = m.num p) : o = p := by
  have hmem : ∀ q : Op, q ∈ Op.searchOrder.rotate 1 := fun q => List.mem_rotate.2 (mem_searchOrder q)
  exact List.inj_on_of_nodup_map (numbers_eq_map_num m ▸ hm) (hmem o) (hmem p) h

/-- Under an injective map the decoder finds the opcode of a number. -/
theorem decodeOp_num_self {m : OpcMap} (hm : m.Injective) (o : Op) : decodeOp m (m.num o) = some o := by
  cases hd : decodeOp m (m.num o) with
  | none => exact absurd rfl (decodeOp_eq_none.1 hd o)
  | some p => rw [num_inj hm (decodeOp_num hd)]

/-- END is tried first, so its number is END's under every map (R64, log 23). -/
theorem decodeOp_halt (m : OpcMap) : decodeOp m m.halt = some .halt := by
  simp [decodeOp, Op.searchOrder, OpcMap.num]

/-! Instructions, opcodes and operands. -/

/-- An instruction is its opcode put together with its operand. -/
theorem op_assemble_operand (i : Instr) : i.op.assemble (i.operand?.getD 0) = i := by cases i <;> rfl

/-- The operand of an assembled instruction, by the format of its opcode (R51). -/
theorem operand?_assemble (v : Int) (o : Op) :
    (o.assemble v).operand? = match o.format with | .N => none | .O => some v := by
  cases o <;> rfl

theorem operand?_of_format_N {i : Instr} (h : i.op.format = .N) : i.operand? = none := by
  rw [← op_assemble_operand i, operand?_assemble, h]

theorem exists_operand?_of_format_O {i : Instr} (h : i.op.format = .O) : ∃ v, i.operand? = some v := by
  rw [← op_assemble_operand i, operand?_assemble, h]
  exact ⟨_, rfl⟩

/-- END is the only instruction with END's opcode. -/
theorem eq_halt_of_op {i : Instr} (h : i.op = .halt) : i = .halt := by
  rw [← op_assemble_operand i, h]
  rfl

/-! What `decode` answers. -/

/-- Where decoding succeeds: the first cell is an opcode's number, and an operand cell follows where its format has one. -/
theorem decode_eq_ok {m : OpcMap} {cells rest : List Int} {i : Instr} :
    decode m cells = .ok (i, rest) ↔
      ∃ w tail, cells = w :: tail ∧ decodeOp m w = some i.op ∧
        ((i.op.format = .N ∧ i = i.op.assemble 0 ∧ tail = rest) ∨
         (i.op.format = .O ∧ ∃ v, i = i.op.assemble v ∧ tail = v :: rest)) := by
  constructor
  · intro h
    unfold decode at h
    split at h
    · cases h
    · rename_i w tail
      refine ⟨w, tail, rfl, ?_⟩
      split at h
      · cases h
      · rename_i o ho
        split at h
        · rename_i hf
          cases h
          rw [assemble_op]
          exact ⟨ho, .inl ⟨hf, rfl, rfl⟩⟩
        · rename_i hf
          cases h
          rw [assemble_op]
          exact ⟨ho, .inr ⟨hf, _, rfl, rfl⟩⟩
        · cases h
  · rintro ⟨w, tail, rfl, hd, ⟨hf, hi, rfl⟩ | ⟨hf, v, hi, rfl⟩⟩
    · simp only [decode, hd, hf, ← hi]
    · simp only [decode, hd, hf, ← hi]

/-- The decoder refuses an opcode cell exactly when it finds no opcode. -/
theorem decode_eq_unknownOpcode {m : OpcMap} {w : Int} {rest : List Int} :
    decode m (w :: rest) = .error (.unknownOpcode w) ↔ decodeOp m w = none := by
  cases hd : decodeOp m w with
  | none => simp [decode, hd]
  | some o => cases hf : o.format <;> cases rest <;> simp [decode, hd, hf]

/-- Settles O1: the opcode is found by its number alone (`decodeOp_num_self`), and the operand by the format. -/
theorem decodeOfEncode : Obligations.DecodeOfEncode := by
  intro m i rest hm
  refine decode_eq_ok.2 ⟨m.num i.op, i.operand?.toList ++ rest, rfl, decodeOp_num_self hm i.op, ?_⟩
  have hi := op_assemble_operand i
  cases hf : i.op.format with
  | N =>
    have hn := operand?_of_format_N hf
    rw [hn] at hi ⊢
    exact .inl ⟨rfl, hi.symm, rfl⟩
  | O =>
    obtain ⟨v, hv⟩ := exists_operand?_of_format_O hf
    rw [hv] at hi ⊢
    exact .inr ⟨rfl, v, hi.symm, rfl⟩

/-- Settles O2: a decoded opcode cell is its opcode's number (`decodeOp_num`), and the operand cell is kept whole. -/
theorem encodeOfDecode : Obligations.EncodeOfDecode := by
  intro m cells rest i h
  obtain ⟨w, tail, rfl, hd, ⟨hf, hi, rfl⟩ | ⟨hf, v, hi, rfl⟩⟩ := decode_eq_ok.1 h
  · rw [Machine.encode_of_operand?_eq_none (operand?_of_format_N hf), decodeOp_num hd]
    rfl
  · have hv : i.operand? = some v := by rw [hi, operand?_assemble, hf]
    rw [Machine.encode_of_operand?_eq_some hv, decodeOp_num hd]
    rfl

/-- Settles O3: the decoder finds no opcode exactly when none has the number. -/
theorem unknownOpcodeExactlyOutsideMap : Obligations.UnknownOpcodeExactlyOutsideMap := by
  intro m w rest
  rw [decode_eq_unknownOpcode, decodeOp_eq_none, mem_numbers_iff, not_exists]

/-- The eleven opcodes of format O, by name (R51). -/
theorem format_eq_O_iff (o : Op) :
    o.format = .O ↔
      o ∈ [Op.loadv, .loada, .loadind, .loadidxx, .loadidxy, .store, .put, .jump, .jumpifeq, .jumpifne, .call] := by
  cases o <;> decide

/-- Settles O4: the length of an encoding is the number of cells of its format, by the table of R51. -/
theorem operandClassIsTheEleven : Obligations.OperandClassIsTheEleven := by
  intro m i
  rw [← if_congr (format_eq_O_iff i.op) rfl rfl]
  cases hf : i.op.format with
  | N => simp [encode, operand?_of_format_N hf]
  | O =>
    obtain ⟨v, hv⟩ := exists_operand?_of_format_O hf
    simp [encode, hv]

/-- Settles O5: closed words under the default map, each decoded by evaluation. -/
theorem writtenOutWordsDecode : Obligations.WrittenOutWordsDecode :=
  ⟨rfl, rfl, rfl, rfl, rfl, rfl, rfl, rfl, rfl, rfl, rfl⟩

end Sys2Proof
end

section
/-! PROOF. The invariant (spec/10_state.md section 3): each update of the state keeps it under the condition the rules of
that update promise, so each phase of a step keeps it, and so does a step. -/

namespace Sys2Proof

/-- An address of the configuration, its upper bound included, is a word (R5, R6). -/
theorem Params.WellFormed.isWord_address {p : Params} (hp : p.WellFormed) {a : Int} (h0 : 0 ≤ a) (h1 : a ≤ p.systemSize) :
    IsWord p.xlen a := by
  have hz : p.systemSize ≤ 2 ^ (p.xlen - 1) - 1 := hp.zones.2.2
  have hpow : (2 : Int) ^ p.xlen = 2 * 2 ^ (p.xlen - 1) := by
    rw [← pow_succ', Nat.sub_add_cancel (by have := hp.width; omega)]
  exact ⟨by omega, by omega⟩

/-- A configured address of the system zone is a word: a vector, the top of the system stack. -/
theorem Params.WellFormed.isWord_of_userSize_le {p : Params} (hp : p.WellFormed) {a : Int} (h0 : p.userSize ≤ a)
    (h1 : a ≤ p.systemSize) : IsWord p.xlen a :=
  hp.isWord_address (by have := hp.zones.1; omega) h1

namespace Machine

variable {s t : State} {v : Int}

/-! The random source. -/

/-- A draw lies within the bounds, whatever the source gives (R107). -/
theorem boundedDraw_mem_bounds {lo hi : Int} (h : lo ≤ hi) (w : Int) : lo ≤ boundedDraw lo hi w ∧ boundedDraw lo hi w ≤ hi := by
  have h0 := Int.emod_nonneg (w - lo) (b := hi - lo + 1) (by omega)
  have h1 := Int.emod_lt_of_pos (w - lo) (b := hi - lo + 1) (by omega)
  unfold boundedDraw
  omega

/-- A word within the bounds stands for itself (R27). -/
theorem boundedDraw_of_mem_bounds {lo hi w : Int} (h0 : lo ≤ w) (h1 : w ≤ hi) : boundedDraw lo hi w = w := by
  rw [boundedDraw, Int.emod_eq_of_lt (by omega) (by omega)]
  omega

/-- The next random word lies within the bounds, whether or not the environment has fixed it. -/
theorem nextRandom_mem_bounds (h : s.cfg.randMin ≤ s.cfg.randMax) :
    s.cfg.randMin ≤ nextRandom s ∧ nextRandom s ≤ s.cfg.randMax := by
  unfold nextRandom
  split <;> exact boundedDraw_mem_bounds h _

/-! What the invariant says of the words at hand. -/

theorem Inv.isWord_cell (h : Inv s) (a : Nat) : IsWord s.cfg.xlen (s.cell a) := isWord_readCell h.fits h.config.fill.1 a

theorem Inv.isWord_register (h : Inv s) (hv : v ∈ s.registers) : IsWord s.cfg.xlen v := h.words v hv

theorem Inv.isWord_nextRandom (h : Inv s) : IsWord s.cfg.xlen (nextRandom s) := by
  obtain ⟨hle, hlo, hhi⟩ := h.config.rand
  obtain ⟨h0, h1⟩ := nextRandom_mem_bounds hle
  have := hlo.1
  have := hhi.2
  exact ⟨by omega, by omega⟩

/-- The countdown of a well-formed configuration's period is decremented exactly (R19, R62). -/
theorem Inv.wrap_countdown_sub_one (h : Inv s) : wrap s.cfg.xlen (s.countdown - 1) = s.countdown - 1 :=
  wrap_sub_one (h.isWord_register (by simp [State.registers])) (by have := h.countdown.1; omega)

/-- In user mode the two cells of a delivery exist (R22): the system stack is empty and has room for two words. -/
theorem Inv.delivery_inRange (h : Inv s) (hu : s.inSystemMode = false) :
    inRange s.cfg (wrap s.cfg.xlen (s.systemSp - 1)) = true ∧ inRange s.cfg (wrap s.cfg.xlen (s.systemSp - 2)) = true := by
  obtain ⟨hlo, hhi⟩ := h.config.systemSp
  have h0 := h.config.zones.1
  rw [h.systemStack hu, wrap_of_isWord (h.config.isWord_of_userSize_le (by omega) (by omega)),
    wrap_of_isWord (h.config.isWord_of_userSize_le (by omega) (by omega)), inRange_iff, inRange_iff]
  omega

/-! Each update of the state. -/

/-- Writing one word to registers keeps them all words. -/
theorem Inv.words_of_subset (h : Inv s) (hv : IsWord s.cfg.xlen v) (ht : t.registers ⊆ v :: s.registers) :
    ∀ w ∈ t.registers, IsWord s.cfg.xlen w := by
  intro w hw
  rcases List.mem_cons.1 (ht hw) with rfl | hw
  · exact hv
  · exact h.words w hw

theorem Inv.setPc (h : Inv s) (hv : IsWord s.cfg.xlen v) : Inv (s.setPc v) :=
  { h with words := h.words_of_subset hv (by simp [State.registers]) }

theorem Inv.setAc (h : Inv s) (hv : IsWord s.cfg.xlen v) : Inv (s.setAc v) :=
  { h with words := h.words_of_subset hv (by simp [State.registers]) }

theorem Inv.setX (h : Inv s) (hv : IsWord s.cfg.xlen v) : Inv (s.setX v) :=
  { h with words := h.words_of_subset hv (by simp [State.registers]) }

theorem Inv.setY (h : Inv s) (hv : IsWord s.cfg.xlen v) : Inv (s.setY v) :=
  { h with words := h.words_of_subset hv (by simp [State.registers]) }

theorem Inv.setIr (h : Inv s) (hv : IsWord s.cfg.xlen v) : Inv (s.setIr v) :=
  { h with words := h.words_of_subset hv (by simp [State.registers]) }

theorem Inv.setUserSp (h : Inv s) (hv : IsWord s.cfg.xlen v) : Inv (s.setUserSp v) :=
  { h with words := h.words_of_subset hv (by simp [State.registers]) }

theorem Inv.setOperandLatch (h : Inv s) (hv : IsWord s.cfg.xlen v) : Inv (s.setOperandLatch v) :=
  { h with words := h.words_of_subset hv (by simp [State.registers]) }

/-- `SystemSP` is free in system mode only (R22). -/
theorem Inv.setSystemSp (h : Inv s) (hm : s.inSystemMode = true) (hv : IsWord s.cfg.xlen v) : Inv (s.setSystemSp v) :=
  { h with
    words := h.words_of_subset hv (by simp [State.registers])
    systemStack := fun hu => by simp [hm] at hu }

theorem Inv.setActiveSp (h : Inv s) (hv : IsWord s.cfg.xlen v) : Inv (setActiveSp s v) := by
  cases hm : s.inSystemMode with
  | false => exact setActiveSp_user hm v ▸ h.setUserSp hv
  | true => exact setActiveSp_system hm v ▸ h.setSystemSp hm hv

theorem Inv.setCountdown (h : Inv s) (hv : IsWord s.cfg.xlen v) (h0 : 1 ≤ v) (h1 : v ≤ s.cfg.timerPeriod) :
    Inv (s.setCountdown v) :=
  { h with
    words := h.words_of_subset hv (by simp [State.registers])
    countdown := ⟨h0, h1⟩ }

/-- A store of a word at an address in range. -/
theorem Inv.store (h : Inv s) {a : Int} (ha : inRange s.cfg a = true) (hv : IsWord s.cfg.xlen v) :
    Inv (s.setMem (writeCell s.cfg.memInit s.mem a.toNat v)) :=
  { h with
    canonical := writeCell_wf h.canonical a.toNat v
    fits := writeCell_fits h.fits (toNat_lt_of_inRange ha) hv }

theorem Inv.halt (h : Inv s) : Inv s.halt := { h with stopped := fun _ => rfl }

/-- A fault stops the core (R121). -/
theorem Inv.halt_setFault (h : Inv s) (f : FaultRecord) : Inv (s.halt.setFault f) := { h with stopped := fun _ => rfl }

theorem Inv.emit (h : Inv s) (r : OutRecord) : Inv (s.emit r) := { h with }

theorem Inv.consumeDraw (h : Inv s) (l : List Int) : Inv (s.consumeDraw l) := { h with }

/-- System mode, the trap masked (R126). -/
theorem Inv.enterSystemMode (h : Inv s) : Inv (s.setMode true false) :=
  { h with
    mask := rfl
    systemStack := fun hu => by simp at hu }

/-- User mode, the trap enabled, the system stack empty (R109). -/
theorem Inv.enterUserMode (h : Inv s) : Inv ((s.setSystemSp s.cfg.systemSpInit).setMode false true) :=
  { h with
    words := h.words_of_subset (h.config.isWord_of_userSize_le (by have := h.config.systemSp.1; omega) h.config.systemSp.2)
      (by simp [State.registers])
    mask := rfl
    systemStack := fun _ => rfl }

/-! Delivery and return. -/

/-- A delivery to a word. -/
theorem Inv.deliver (h : Inv s) {target : Int} (hv : IsWord s.cfg.xlen target) (hd : deliver target s = .ok () t) : Inv t := by
  obtain ⟨h1, h2, rfl⟩ := deliver_eq_ok.1 hd
  have hpc : IsWord s.cfg.xlen s.pc := h.isWord_register (by simp [State.registers])
  have hsp : IsWord s.cfg.xlen s.userSp := h.isWord_register (by simp [State.registers])
  exact ((((h.enterSystemMode.setSystemSp rfl (isWord_wrap _ _)).store h1 hpc).store h2 hsp).setPc hv).enterSystemMode

/-- A delivery whose two cells exist does not stop. -/
theorem deliver_ne_stopped (h1 : inRange s.cfg (wrap s.cfg.xlen (s.systemSp - 1)) = true)
    (h2 : inRange s.cfg (wrap s.cfg.xlen (s.systemSp - 2)) = true) (target : Int) : Machine.deliver target s ≠ .stopped t := by
  intro hd
  rcases deliver_eq_stopped.1 hd with ⟨h', _⟩ | ⟨_, h', _⟩
  · simp [h1] at h'
  · simp [h2] at h'

/-- In user mode no delivery stops (R22). -/
theorem Inv.deliver_ne_stopped (h : Inv s) (hu : s.inSystemMode = false) (target : Int) : Machine.deliver target s ≠ .stopped t :=
  Machine.deliver_ne_stopped (h.delivery_inRange hu).1 (h.delivery_inRange hu).2 target

theorem Inv.returnFromInterrupt (h : Inv s) (hr : returnFromInterrupt s = .ok () t) : Inv t := by
  obtain ⟨_, _, rfl⟩ := returnFromInterrupt_eq_ok.1 hr
  exact ((h.setUserSp (h.isWord_cell _)).setPc (h.isWord_cell _)).enterUserMode

theorem Inv.returnFromInterrupt_stopped (h : Inv s) (hm : s.inSystemMode = true)
    (hr : Machine.returnFromInterrupt s = .stopped t) : Inv t := by
  rcases returnFromInterrupt_eq_stopped.1 hr with ⟨_, rfl⟩ | ⟨_, _, rfl⟩
  · exact h.halt_setFault _
  · exact ((h.setUserSp (h.isWord_cell _)).setSystemSp hm (isWord_wrap _ _)).halt_setFault _

/-! The phases of a step. -/

/-- A delivery neither reads nor writes the countdown. -/
theorem deliver_setCountdown {target c : Int} (h : deliver target (s.setCountdown v) = .ok () t) :
    deliver target (s.setCountdown c) = .ok () (t.setCountdown c) := by
  obtain ⟨h1, h2, rfl⟩ := deliver_eq_ok.1 h
  exact deliver_eq_ok.2 ⟨h1, h2, rfl⟩

theorem Inv.timerPhase (h : Inv s) (ht : timerPhase s = .ok () t) : Inv t := by
  obtain ⟨h1, hN⟩ := h.countdown
  rcases timerPhase_eq_ok.1 ht with ⟨_, rfl⟩ | ⟨hu, hf, rfl⟩ | ⟨_, _, u, hd, rfl⟩
  · exact h
  · have hpos : ¬ wrap s.cfg.xlen (s.countdown - 1) ≤ 0 := fun hle => by simp [timerFires_iff.2 ⟨hu, hle⟩] at hf
    rw [h.wrap_countdown_sub_one] at hpos
    exact h.setCountdown (isWord_wrap _ _) (by rw [h.wrap_countdown_sub_one]; omega) (by rw [h.wrap_countdown_sub_one]; omega)
  · obtain ⟨hv0, hv1⟩ := h.config.timerVector
    obtain ⟨hp0, hp1⟩ := h.config.period
    exact (h.setCountdown hp1 hp0 le_rfl).deliver (h.config.isWord_of_userSize_le hv0 hv1.le) (deliver_setCountdown hd)

/-- Under the invariant the timer phase never stops: it delivers in user mode only. -/
theorem Inv.timerPhase_ne_stopped (h : Inv s) : Machine.timerPhase s ≠ .stopped t := by
  intro ht
  obtain ⟨hu, _, hd⟩ := timerPhase_eq_stopped.1 ht
  obtain ⟨h1, h2⟩ := h.delivery_inRange hu
  exact Machine.deliver_ne_stopped (s := s.setCountdown (wrap s.cfg.xlen (s.countdown - 1))) h1 h2 _ hd

/-- The fetch leaves words in `IR`, `PC` and the latch, and the instruction it decodes has a word for its operand (R55). -/
theorem Inv.fetch (h : Inv s) {i : Instr} (hf : fetch s = .ok i t) : Inv t ∧ i.WellFormed t.cfg.xlen := by
  obtain ⟨_, _, ⟨hN, hi, rfl⟩ | ⟨hO, _, hi, rfl⟩⟩ := fetch_eq_ok hf
  · refine ⟨(h.setIr (h.isWord_cell _)).setPc (isWord_wrap _ _), fun v hv => ?_⟩
    simp [operand?_of_format_N hN] at hv
  · refine ⟨(((h.setIr (h.isWord_cell _)).setPc (isWord_wrap _ _)).setOperandLatch (h.isWord_cell _)).setPc (isWord_wrap _ _),
      fun v hv => ?_⟩
    rw [hi, operand?_assemble, hO] at hv
    cases hv
    exact h.isWord_cell _

theorem Inv.fetch_stopped (h : Inv s) (hf : Machine.fetch s = .stopped t) : Inv t := by
  rcases fetch_eq_stopped hf with ⟨_, rfl⟩ | ⟨_, _, rfl⟩ | ⟨_, _, rfl⟩
  · exact h.halt_setFault _
  · exact ((h.setIr (h.isWord_cell _)).setPc (isWord_wrap _ _)).halt_setFault _
  · exact ((h.setIr (h.isWord_cell _)).setPc (isWord_wrap _ _)).halt_setFault _

/-- Whatever an instruction writes to a register is a word. -/
theorem Inv.isWord_origin (h : Inv s) {i : Instr} (hi : i.WellFormed s.cfg.xlen) (ho : Origin s i v) : IsWord s.cfg.xlen v := by
  cases ho with
  | operand hv => exact hi v hv
  | cell a => exact h.isWord_cell a
  | sum n => exact isWord_wrap _ _
  | register hv => exact h.isWord_register (by simp [State.registers] at hv ⊢; tauto)

/-- Every meaning keeps the invariant. The trap is enabled in user mode only, where its delivery cannot stop (R22). -/
theorem Inv.exec (h : Inv s) {i : Instr} (hi : i.WellFormed s.cfg.xlen) (he : exec i s = .next t) : Inv t := by
  have hac : IsWord s.cfg.xlen s.ac := h.isWord_register (by simp [State.registers])
  have hpc : IsWord s.cfg.xlen s.pc := h.isWord_register (by simp [State.registers])
  have huser : s.interruptsEnabled = true → s.inSystemMode = false := fun hint => by simpa [hint] using h.mask
  cases exec_effect he with
  | same _ => exact h
  | toAc ho _ => exact h.setAc (h.isWord_origin hi ho)
  | toX ho _ => exact h.setX (h.isWord_origin hi ho)
  | toY => exact h.setY hac
  | toSp => exact h.setActiveSp hac
  | jumped ho _ => exact h.setPc (hi _ ho)
  | faulted f _ => exact h.halt_setFault f
  | stored a _ ha => exact h.store ha hac
  | pushed ha => simpa using (h.setActiveSp (isWord_wrap _ _)).store (by simpa using ha) (by simpa using hac)
  | called target ha =>
    have hstored := (h.setActiveSp (isWord_wrap s.cfg.xlen (activeSp s - 1))).store (by simpa using ha) (by simpa using hpc)
    simpa using hstored.setPc (by simpa using hi target rfl)
  | pushFaulted _ _ => exact (h.setActiveSp (isWord_wrap _ _)).halt_setFault _
  | popped _ => exact (h.setActiveSp (isWord_wrap _ _)).setAc (by simpa using h.isWord_cell _)
  | returned _ => exact (h.setActiveSp (isWord_wrap _ _)).setPc (by simpa using h.isWord_cell _)
  | emitted port k => exact h.emit _
  | drew => exact (h.consumeDraw _).setAc h.isWord_nextRandom
  | trapped _ hd =>
    obtain ⟨hv0, hv1⟩ := h.config.syscallVector
    exact h.deliver (h.config.isWord_of_userSize_le hv0 hv1.le) hd
  | trapFaulted hint hd => exact absurd hd (h.deliver_ne_stopped (huser hint) _)
  | resumed _ hr => exact h.returnFromInterrupt hr
  | resumeFaulted hm hr => exact h.returnFromInterrupt_stopped hm hr
  | halted => exact h.halt

/-- Settles O15: phase by phase, by `step_cases`. -/
theorem stepKeepsInvariant : Obligations.StepKeepsInvariant := by
  intro s t h hs
  rcases step_cases hs with ⟨_, rfl⟩ | ⟨_, hp⟩ | ⟨_, u, hp, hf⟩ | ⟨_, u, i, v, hp, hf, he⟩
  · exact h
  · exact absurd hp h.timerPhase_ne_stopped
  · exact (h.timerPhase hp).fetch_stopped hf
  · obtain ⟨hv, hi⟩ := (h.timerPhase hp).fetch hf
    exact hv.exec hi he

end Machine

end Sys2Proof
end

section
/-! PROOF. The phases of a step, forward (spec/40_cycle.md): what each phase gives where its conditions hold, and the step
built from them. -/

namespace Sys2Proof.Machine

variable {s t u : State} {i : Instr} {o : Op}

/-- A fault halts the core and writes the record (R121). -/
theorem stoppedBy_eq (s : State) (f : FaultRecord) : s.stoppedBy f = s.halt.setFault f := rfl

/-! The timer phase. -/

theorem timerFires_eq_false_iff :
    timerFires s = false ↔ s.inSystemMode = true ∨ 0 < wrap s.cfg.xlen (s.countdown - 1) := by
  cases hm : s.inSystemMode <;> simp [timerFires, hm]

theorem tick_of_user (h : s.inSystemMode = false) : s.tick = s.setCountdown (wrap s.cfg.xlen (s.countdown - 1)) := by
  rw [State.tick, if_neg (by simp [h])]
  rfl

theorem tick_of_system (h : s.inSystemMode = true) : s.tick = s := by rw [State.tick, if_pos h]

/-- Where the timer does not fire, phase 1 is the tick. -/
theorem timerPhase_of_not_fires (h : timerFires s = false) : timerPhase s = .ok () s.tick := by
  rw [timerPhase_eq_ok]
  cases hm : s.inSystemMode with
  | false => exact .inr (.inl ⟨rfl, h, tick_of_user hm⟩)
  | true => exact .inl ⟨rfl, tick_of_system hm⟩

/-- A delivery leaves the configuration alone. -/
theorem deliver_cfg {target : Int} (h : deliver target s = .ok () t) : t.cfg = s.cfg := by
  obtain ⟨_, _, rfl⟩ := deliver_eq_ok.1 h
  rfl

/-- Where it fires and the delivery goes on, phase 1 is the delivery and the reload. -/
theorem timerPhase_of_fires (h : timerFires s = true)
    (hd : deliver s.cfg.timerVector (s.setCountdown (wrap s.cfg.xlen (s.countdown - 1))) = .ok () u) :
    timerPhase s = .ok () (u.setCountdown s.cfg.timerPeriod) :=
  timerPhase_eq_ok.2 (.inr (.inr ⟨(timerFires_iff.1 h).1, h, u, hd, rfl⟩))

/-! The fetch. -/

theorem fetch_of_not_inRange (h : inRange s.cfg s.pc = false) : fetch s = .stopped (s.halt.setFault (.memRangeFault s.pc)) := by
  rw [fetch, fetchOpcode_eq_stopped.2 ⟨h, rfl⟩]
  rfl

/-- An opcode cell in range is decoded in the state after its fetch. -/
theorem fetch_of_decodeOp_eq_none (h : inRange s.cfg s.pc = true) (hd : decodeOp s.cfg.opc (s.cell s.pc.toNat) = none) :
    fetch s = .stopped (((s.setIr (s.cell s.pc.toNat)).setPc (wrap s.cfg.xlen (s.pc + 1))).halt.setFault
      (.unknownOpcode (s.cell s.pc.toNat) s.pc)) := by
  simp [fetch, fetchOpcode_eq_ok.2 ⟨h, rfl, rfl⟩, hd]

theorem fetch_of_decodeOp_eq_some (h : inRange s.cfg s.pc = true) (hd : decodeOp s.cfg.opc (s.cell s.pc.toNat) = some o) :
    fetch s = fetchInstr o ((s.setIr (s.cell s.pc.toNat)).setPc (wrap s.cfg.xlen (s.pc + 1))) := by
  simp [fetch, fetchOpcode_eq_ok.2 ⟨h, rfl, rfl⟩, hd]

theorem fetchInstr_of_format_N (h : o.format = .N) : fetchInstr o s = .ok (o.assemble 0) s := by
  simp [fetchInstr, h]

theorem fetchInstr_of_format_O (h : o.format = .O) (hr : inRange s.cfg s.pc = true) :
    fetchInstr o s = .ok (o.assemble (s.cell s.pc.toNat))
      ((s.setOperandLatch (s.cell s.pc.toNat)).setPc (wrap s.cfg.xlen (s.pc + 1))) := by
  simp [fetchInstr, h, fetchOperand_eq_ok.2 ⟨hr, rfl, rfl⟩]

theorem fetchInstr_of_operand_not_inRange (h : o.format = .O) (hr : inRange s.cfg s.pc = false) :
    fetchInstr o s = .stopped (s.halt.setFault (.memRangeFault s.pc)) := by
  simp [fetchInstr, h, fetchOperand_eq_stopped.2 ⟨hr, rfl⟩]

theorem afterFetch_of_format_N (h : i.op.format = .N) :
    s.afterFetch i = (s.setIr (s.cfg.opc.num i.op)).setPc (wrap s.cfg.xlen (s.pc + 1)) := by
  simp [State.afterFetch, State.setIr, State.setPc, operand?_of_format_N h, Instr.cells, h, Format.cells]

theorem afterFetch_of_format_O {v : Int} (h : i.op.format = .O) (hv : i.operand? = some v) :
    s.afterFetch i = (((s.setIr (s.cfg.opc.num i.op)).setPc (wrap s.cfg.xlen (s.pc + 1))).setOperandLatch v).setPc
      (wrap s.cfg.xlen (wrap s.cfg.xlen (s.pc + 1) + 1)) := by
  rw [wrap_add_one_add_one]
  simp [State.afterFetch, State.setIr, State.setPc, State.setOperandLatch, hv, Instr.cells, h, Format.cells]

/-- The fetch takes from the cells at `PC` what the decoder takes from them. -/
theorem fetch_of_decode {rest : List Int} (h : decode s.cfg.opc (codeCells s) = .ok (i, rest)) :
    fetch s = .ok i (s.afterFetch i) := by
  obtain ⟨w, tail, hcells, hd, hcase⟩ := decode_eq_ok.1 h
  have hnum := decodeOp_num hd
  unfold codeCells at hcells
  split at hcells
  · rename_i hr
    obtain ⟨rfl, rfl⟩ := List.cons.inj hcells
    rw [fetch_of_decodeOp_eq_some hr hd]
    rcases hcase with ⟨hf, hi, _⟩ | ⟨hf, v, hi, htail⟩
    · rw [fetchInstr_of_format_N hf, ← hi, afterFetch_of_format_N hf, hnum]
    · split at htail
      · rename_i hr'
        obtain ⟨rfl, _⟩ := List.cons.inj htail
        rw [afterFetch_of_format_O hf (by rw [hi, operand?_assemble, hf]), hnum]
        exact (fetchInstr_of_format_O hf hr').trans (congrArg (Ran.ok · _) hi.symm)
      · cases htail
  · cases hcells

/-! The step. -/

theorem step_of_not_running (h : s.running = false) : step s = .next s := by simp [step, h]

theorem step_of_timerPhase_stopped (h : s.running = true) (hp : timerPhase s = .stopped t) : step s = .next t := by
  simp [step, h, prepare, hp]

theorem step_of_fetch_stopped (h : s.running = true) (hp : timerPhase s = .ok () u) (hf : fetch u = .stopped t) :
    step s = .next t := by
  simp [step, h, prepare, hp, hf]

theorem step_of_fetch_ok (h : s.running = true) (hp : timerPhase s = .ok () u) (hf : fetch u = .ok i t) :
    step s = exec i t := by
  simp [step, h, prepare, hp, hf]

/-- Settles O6: phase 1 is the tick, which moves neither `PC` nor memory, and the fetch follows the decoder. -/
theorem stepRunsDecodedInstruction : Obligations.StepRunsDecodedInstruction := by
  intro s i rest hr hf hd
  exact step_of_fetch_ok hr (timerPhase_of_not_fires hf) (fetch_of_decode (s := s.tick) hd)

/-- Settles O7: phase 1 is the delivery and the reload, which moves neither `PC` nor memory. -/
theorem stepWithTimerRunsHandler : Obligations.StepWithTimerRunsHandler := by
  intro s d i rest hr hu hc hd hdec
  rw [← deliver_cfg hd] at hdec
  exact step_of_fetch_ok hr (timerPhase_of_fires (timerFires_iff.2 ⟨hu, hc⟩) hd)
    (fetch_of_decode (s := d.setCountdown s.cfg.timerPeriod) hdec)

/-- Settles O8, by induction on the number of steps. -/
theorem stoppedCoreStaysAsItIs : Obligations.StoppedCoreStaysAsItIs := by
  intro s n h
  induction n with
  | zero => rfl
  | succ n ih => rw [runFor_succ (step_of_not_running h), ih]

theorem exists_outcome_eq_next (r : Ran Unit) : ∃ t, r.outcome = .next t := by
  cases r with
  | ok _ s => exact ⟨s, rfl⟩
  | stopped s => exact ⟨s, rfl⟩

/-- Every meaning is a plain update or the outcome of a piece of a step, and answers a next state either way. -/
theorem exists_exec_eq_next (i : Instr) (s : State) : ∃ t, exec i s = .next t := by
  cases i with
  | loada | loadind | loadidxx | loadidxy | loadspx | store | call | ret | push | pop | put | int | iret =>
    exact exists_outcome_eq_next _
  | loadv | addx | addy | subx | suby | copytox | copyfromx | copytoy | copyfromy | copytosp | copyfromsp | jump
  | jumpifeq | jumpifne | incx | decx | get | halt => exact ⟨_, rfl⟩

/-- Settles O9: each phase that stops answers a next state, and so does every meaning. -/
theorem stepAlwaysAnswersNext : Obligations.StepAlwaysAnswersNext := by
  intro s
  cases hr : s.running with
  | false => exact ⟨s, step_of_not_running hr⟩
  | true =>
    cases hp : timerPhase s with
    | stopped t => exact ⟨t, step_of_timerPhase_stopped hr hp⟩
    | ok _ u =>
      cases hf : fetch u with
      | stopped t => exact ⟨t, step_of_fetch_stopped hr hp hf⟩
      | ok i v =>
        rw [step_of_fetch_ok hr hp hf]
        exact exists_exec_eq_next i v

/-- Settles O11: a cell outside the 31 numbers decodes to no opcode, and the fetch stops on it. -/
theorem unknownOpcodeStops : Obligations.UnknownOpcodeStops := by
  intro s t hr hp hin hw
  have hd : decodeOp t.cfg.opc (t.cell t.pc.toNat) = none :=
    decodeOp_eq_none.2 fun o ho => hw (mem_numbers_iff.2 ⟨o, ho⟩)
  exact step_of_fetch_stopped hr hp (fetch_of_decodeOp_eq_none hin hd)

/-- Settles O12: the fetch stops at the opcode cell, or after it at the operand cell. -/
theorem fetchOutOfRangeStops : Obligations.FetchOutOfRangeStops := by
  refine ⟨fun s t hr hp hin => ?opcode, fun s t o hr hp hin hd hf hout => ?operand⟩
  case opcode => exact step_of_fetch_stopped hr hp (fetch_of_not_inRange hin)
  case operand =>
    refine step_of_fetch_stopped hr hp ?_
    rw [fetch_of_decodeOp_eq_some hin hd]
    exact fetchInstr_of_operand_not_inRange hf hout

/-- END (R64). -/
theorem exec_halt (s : State) : exec .halt s = .next s.halt := rfl

/-- Settles O49: END's number decodes to END under every map (`decodeOp_halt`), and no operand is fetched. -/
theorem endHaltsTheCore : Obligations.EndHaltsTheCore := by
  refine ⟨exec_halt, fun m => encode_of_operand?_eq_none rfl, fun s t hr hp hin hw => ?_⟩
  have hd : decodeOp t.cfg.opc (t.cell t.pc.toNat) = some .halt := hw ▸ decodeOp_halt t.cfg.opc
  have hf : fetch t = .ok .halt ((t.setIr (t.cell t.pc.toNat)).setPc (wrap t.cfg.xlen (t.pc + 1))) :=
    (fetch_of_decodeOp_eq_some hin hd).trans (fetchInstr_of_format_N rfl)
  rw [step_of_fetch_ok hr hp hf, exec_halt, hw]
  rfl

end Sys2Proof.Machine
end

section
/-! PROOF. Reset (spec/10_state.md section 5). -/

namespace Sys2Proof.Machine

/-- The word of a cell is that of the first pair listed with its address, if there is one. -/
theorem readCell_eq_find? (fill : Int) (m : Memory) (a : Nat) :
    readCell fill m a = ((m.find? fun c => c.1 == a).map Prod.snd).getD fill := by
  induction m with
  | nil => rfl
  | cons c rest ih =>
    by_cases h : c.1 = a
    · simp [readCell, h]
    · simp [readCell, h, ih]

/-- The defaults of R4 satisfy R5. -/
theorem defaultParams_wellFormed : defaultParams.WellFormed where
  width := by decide
  zones := by decide
  room := by decide
  timerVector := by decide
  syscallVector := by decide
  period := by decide
  ports := by decide
  rand := by decide
  userSp := by decide
  systemSp := by decide
  opc := by decide
  fill := by decide

/-- Reset meets the invariant under every well-formed configuration, with every canonical image loaded. -/
theorem inv_resetWith {p : Params} {image : Memory} (hp : p.WellFormed) (hw : Memory.wf p.memInit image)
    (hf : Memory.fits p image) : Inv (State.resetWith p image) where
  config := hp
  words := by
    have hzero : IsWord p.xlen 0 := hp.isWord_address le_rfl (by have := hp.zones.1; have := hp.zones.2.1; omega)
    have huser : IsWord p.xlen p.userSpInit :=
      hp.isWord_address hp.userSp.1.le (by have := hp.userSp.2; have := hp.zones.2.1; omega)
    have hsystem : IsWord p.xlen p.systemSpInit :=
      hp.isWord_of_userSize_le (by have := hp.systemSp.1; omega) hp.systemSp.2
    simp only [State.registers, State.resetWith, List.forall_mem_cons]
    exact ⟨hzero, hp.fill.2, hp.fill.2, hp.fill.2, hp.fill.2, huser, hsystem, hp.period.2, hzero, by simp⟩
  canonical := hw
  fits := hf
  mask := rfl
  systemStack := fun _ => rfl
  countdown := ⟨hp.period.1, le_rfl⟩
  stopped := fun h => absurd rfl h

/-- Settles O16, with the default configuration and the empty image as the second part. -/
theorem resetMeetsInvariant : Obligations.ResetMeetsInvariant :=
  ⟨fun _ _ hp hw hf => inv_resetWith hp hw hf, inv_resetWith defaultParams_wellFormed ⟨.nil, by simp⟩ (by simp)⟩

/-- Settles O17: the fields by the definition of `State.resetWith`, the cells by `readCell_eq_find?`. -/
theorem resetValues : Obligations.ResetValues := by
  rintro p image s rfl
  refine ⟨rfl, rfl, rfl, rfl, rfl, rfl, rfl, rfl, rfl, rfl, rfl, rfl, rfl, rfl, fun a => ?_⟩
  exact readCell_eq_find? p.memInit image a

end Sys2Proof.Machine
end

section
/-! PROOF. What every step keeps (spec/10_state.md sections 2, 3 and 6, spec/60_exceptions.md sections 7 and 8). First which
fields each shared operation can write, said as a shape of the state it leaves; then what each field can become in an
instruction's meaning, by the shapes of `Effect`; then the steps, by `step_cases`. -/

namespace Sys2Proof.Machine

variable {s t u : State} {i : Instr} {target : Int}

/-! The shapes that the shared operations leave. -/

theorem deliver_ok_shape (h : deliver target s = .ok () t) :
    ∃ sp m, t = (((s.setSystemSp sp).setMem m).setPc target).setMode true false := by
  obtain ⟨_, _, rfl⟩ := deliver_eq_ok.1 h
  exact ⟨_, _, rfl⟩

theorem deliver_stopped_shape (h : deliver target s = .stopped t) :
    ∃ sp m f, t = ((s.setSystemSp sp).setMem m).halt.setFault f := by
  rcases deliver_eq_stopped.1 h with ⟨_, rfl⟩ | ⟨_, _, rfl⟩
  · exact ⟨wrap s.cfg.xlen (s.systemSp - 1), s.mem, _, rfl⟩
  · exact ⟨_, _, _, rfl⟩

theorem returnFromInterrupt_ok_shape (h : returnFromInterrupt s = .ok () t) :
    ∃ usp pc, t = (((s.setUserSp usp).setPc pc).setSystemSp s.cfg.systemSpInit).setMode false true := by
  obtain ⟨_, _, rfl⟩ := returnFromInterrupt_eq_ok.1 h
  exact ⟨_, _, rfl⟩

theorem returnFromInterrupt_stopped_shape (h : returnFromInterrupt s = .stopped t) :
    ∃ usp sp f, t = ((s.setUserSp usp).setSystemSp sp).halt.setFault f := by
  rcases returnFromInterrupt_eq_stopped.1 h with ⟨_, rfl⟩ | ⟨_, _, rfl⟩
  · exact ⟨s.userSp, s.systemSp, _, rfl⟩
  · exact ⟨_, _, _, rfl⟩

/-- Phase 1 writes the countdown and, where the timer fires, what a delivery writes. -/
theorem timerPhase_ok_shape (h : timerPhase s = .ok () t) :
    ∃ c, t = s.setCountdown c ∨ (timerFires s = true ∧ ∃ sp m,
      t = ((((s.setSystemSp sp).setMem m).setPc s.cfg.timerVector).setMode true false).setCountdown c) := by
  rcases timerPhase_eq_ok.1 h with ⟨_, rfl⟩ | ⟨_, _, rfl⟩ | ⟨_, hf, u, hd, rfl⟩
  · exact ⟨t.countdown, .inl rfl⟩
  · exact ⟨_, .inl rfl⟩
  · obtain ⟨sp, m, rfl⟩ := deliver_ok_shape hd
    exact ⟨_, .inr ⟨hf, sp, m, rfl⟩⟩

theorem timerPhase_stopped_shape (h : timerPhase s = .stopped t) :
    s.inSystemMode = false ∧ timerFires s = true ∧
      ∃ c sp m f, t = (((s.setCountdown c).setSystemSp sp).setMem m).halt.setFault f := by
  obtain ⟨hu, hf, hd⟩ := timerPhase_eq_stopped.1 h
  obtain ⟨sp, m, f, rfl⟩ := deliver_stopped_shape hd
  exact ⟨hu, hf, _, sp, m, f, rfl⟩

/-- The fetch writes `IR`, which the decoder takes the opcode from, `PC` and the latch. -/
theorem fetch_ok_shape (h : fetch s = .ok i t) :
    decodeOp s.cfg.opc (s.cfg.opc.num i.op) = some i.op ∧
      ∃ pc latch, t = ((s.setIr (s.cfg.opc.num i.op)).setPc pc).setOperandLatch latch := by
  obtain ⟨_, hd, hcase⟩ := fetch_eq_ok h
  have hnum := decodeOp_num hd
  rw [← hnum] at hd hcase
  refine ⟨hd, ?_⟩
  rcases hcase with ⟨_, _, rfl⟩ | ⟨_, _, _, rfl⟩
  · exact ⟨wrap s.cfg.xlen (s.pc + 1), s.operandLatch, rfl⟩
  · exact ⟨_, _, rfl⟩

theorem fetch_stopped_shape (h : fetch s = .stopped t) : ∃ ir pc f, t = ((s.setIr ir).setPc pc).halt.setFault f := by
  rcases fetch_eq_stopped h with ⟨_, rfl⟩ | ⟨_, _, rfl⟩ | ⟨_, _, rfl⟩
  · exact ⟨s.ir, s.pc, _, rfl⟩
  · exact ⟨_, _, _, rfl⟩
  · exact ⟨_, _, _, rfl⟩

/-! What a meaning can do to each field. -/

/-- What neither a phase before an instruction's meaning writes, nor a delivery or a return. -/
structure KeepsData (s t : State) : Prop where
  cfg : t.cfg = s.cfg
  ac : t.ac = s.ac
  output : t.output = s.output
  randomNext : t.randomNext = s.randomNext
  draws : t.draws = s.draws

/-- INT and IRET keep all of that, `IR` and the countdown, also where they stop. -/
theorem Effect.trap_keeps (h : Effect s i t) (hi : i.op = .int ∨ i.op = .iret) :
    KeepsData s t ∧ t.ir = s.ir ∧ t.countdown = s.countdown := by
  cases h with
  | same => exact ⟨⟨rfl, rfl, rfl, rfl, rfl⟩, rfl, rfl⟩
  | trapped _ hd => obtain ⟨_, _, rfl⟩ := deliver_ok_shape hd; exact ⟨⟨rfl, rfl, rfl, rfl, rfl⟩, rfl, rfl⟩
  | trapFaulted _ hd => obtain ⟨_, _, _, rfl⟩ := deliver_stopped_shape hd; exact ⟨⟨rfl, rfl, rfl, rfl, rfl⟩, rfl, rfl⟩
  | resumed _ hr => obtain ⟨_, _, rfl⟩ := returnFromInterrupt_ok_shape hr; exact ⟨⟨rfl, rfl, rfl, rfl, rfl⟩, rfl, rfl⟩
  | resumeFaulted _ hr =>
    obtain ⟨_, _, _, rfl⟩ := returnFromInterrupt_stopped_shape hr
    exact ⟨⟨rfl, rfl, rfl, rfl, rfl⟩, rfl, rfl⟩
  | toAc _ hj | toX _ hj | jumped _ hj | faulted _ hj | pushFaulted hj => rcases hi with hi | hi <;> simp [hi] at hj
  | _ => simp [Instr.op] at hi

/-- No meaning writes the configuration, `IR` or the countdown. -/
theorem Effect.cfg_ir_countdown (h : Effect s i t) : t.cfg = s.cfg ∧ t.ir = s.ir ∧ t.countdown = s.countdown := by
  have htrap := h.trap_keeps
  cases h with
  | trapped | trapFaulted | resumed | resumeFaulted =>
    obtain ⟨hk, hir, hcount⟩ := htrap (by simp [Instr.op])
    exact ⟨hk.cfg, hir, hcount⟩
  | _ => simp

/-- A meaning faults, or is END's and halts, or leaves `running` and the fault record alone (R18, R69). -/
theorem Effect.running_fault (h : Effect s i t) :
    t.Faulted ∨ (i = .halt ∧ t = s.halt) ∨ (i ≠ .halt ∧ t.running = s.running ∧ t.fault = s.fault) := by
  cases h with
  | faulted | pushFaulted => exact .inl (by simp [State.Faulted])
  | trapFaulted _ hd => obtain ⟨_, _, _, rfl⟩ := deliver_stopped_shape hd; exact .inl (by simp [State.Faulted])
  | resumeFaulted _ hr => obtain ⟨_, _, _, rfl⟩ := returnFromInterrupt_stopped_shape hr; exact .inl (by simp [State.Faulted])
  | halted => exact .inr (.inl ⟨rfl, rfl⟩)
  | trapped _ hd => obtain ⟨_, _, rfl⟩ := deliver_ok_shape hd; exact .inr (.inr (by simp))
  | resumed _ hr => obtain ⟨_, _, rfl⟩ := returnFromInterrupt_ok_shape hr; exact .inr (.inr (by simp))
  | same hi | toAc _ hi | toX _ hi | jumped _ hi =>
    exact .inr (.inr ⟨by rintro rfl; simp [Instr.op] at hi, rfl, rfl⟩)
  | toY | toSp | stored | pushed | called | popped | returned | emitted | drew => exact .inr (.inr (by simp))

/-- Only PUT appends to the output history, and only the word of `AC` (R100). -/
theorem Effect.output (h : Effect s i t) :
    t.output = s.output ∨ (i.op = .put ∧ ∃ k, t.output = s.output ++ [⟨k, s.ac⟩]) := by
  have htrap := h.trap_keeps
  cases h with
  | emitted port k => exact .inr ⟨rfl, k, rfl⟩
  | trapped | trapFaulted | resumed | resumeFaulted => exact .inl (htrap (by simp [Instr.op])).1.output
  | _ => simp

/-- Only GET consumes random words, and it consumes one (R107). -/
theorem Effect.draws (h : Effect s i t) :
    (t.draws = s.draws ∧ t.randomNext = s.randomNext) ∨
      (i.op = .get ∧ t.draws = s.draws + 1 ∧ t.randomNext = s.randomNext.tail) := by
  have htrap := h.trap_keeps
  cases h with
  | drew => exact .inr ⟨rfl, rfl, rfl⟩
  | trapped | trapFaulted | resumed | resumeFaulted =>
    obtain ⟨hk, _⟩ := htrap (by simp [Instr.op])
    exact .inl ⟨hk.draws, hk.randomNext⟩
  | _ => simp

/-- A meaning leaves mode and mask alone, or is a delivery by INT, or a return by IRET (R132). -/
theorem Effect.mode (h : Effect s i t) :
    (t.inSystemMode = s.inSystemMode ∧ t.interruptsEnabled = s.interruptsEnabled) ∨
    (i.op = .int ∧ s.interruptsEnabled = true ∧ t.inSystemMode = true ∧ t.interruptsEnabled = false ∧
      t.pc = s.cfg.syscallVector) ∨
    (i.op = .iret ∧ t.inSystemMode = false ∧ t.interruptsEnabled = true ∧ t.systemSp = s.cfg.systemSpInit) := by
  cases h with
  | trapped hint hd => obtain ⟨_, _, rfl⟩ := deliver_ok_shape hd; exact .inr (.inl ⟨rfl, hint, rfl, rfl, rfl⟩)
  | resumed _ hr => obtain ⟨_, _, rfl⟩ := returnFromInterrupt_ok_shape hr; exact .inr (.inr ⟨rfl, rfl, rfl, rfl⟩)
  | trapFaulted _ hd => obtain ⟨_, _, _, rfl⟩ := deliver_stopped_shape hd; exact .inl ⟨rfl, rfl⟩
  | resumeFaulted _ hr => obtain ⟨_, _, _, rfl⟩ := returnFromInterrupt_stopped_shape hr; exact .inl ⟨rfl, rfl⟩
  | _ => simp

/-! The memory's canonical form. -/

theorem deliver_ok_wf (h : deliver target s = .ok () t) (hm : Memory.wf s.cfg.memInit s.mem) :
    Memory.wf t.cfg.memInit t.mem := by
  obtain ⟨_, _, rfl⟩ := deliver_eq_ok.1 h
  exact writeCell_wf (writeCell_wf hm _ _) _ _

theorem deliver_stopped_wf (h : deliver target s = .stopped t) (hm : Memory.wf s.cfg.memInit s.mem) :
    Memory.wf t.cfg.memInit t.mem := by
  rcases deliver_eq_stopped.1 h with ⟨_, rfl⟩ | ⟨_, _, rfl⟩
  · exact hm
  · exact writeCell_wf hm _ _

/-- Every meaning changes the memory by writes of single cells, and they keep its form (`writeCell_wf`). -/
theorem Effect.wf (h : Effect s i t) (hm : Memory.wf s.cfg.memInit s.mem) : Memory.wf t.cfg.memInit t.mem := by
  cases h with
  | stored => exact writeCell_wf hm _ _
  | pushed | called => simpa using writeCell_wf hm _ _
  | trapped _ hd => exact deliver_ok_wf hd hm
  | trapFaulted _ hd => exact deliver_stopped_wf hd hm
  | resumed _ hr => obtain ⟨_, _, rfl⟩ := returnFromInterrupt_ok_shape hr; exact hm
  | resumeFaulted _ hr => obtain ⟨_, _, _, rfl⟩ := returnFromInterrupt_stopped_shape hr; exact hm
  | _ => simpa using hm

/-- Settles O18: the timer phase writes as a delivery does, the fetch writes no cell, and a meaning keeps the form
(`Effect.wf`). -/
theorem stepKeepsMemoryForm : Obligations.StepKeepsMemoryForm := by
  intro s t hm hs
  have htimer : ∀ {u : State}, timerPhase s = .ok () u → Memory.wf u.cfg.memInit u.mem := by
    intro u hp
    rcases timerPhase_eq_ok.1 hp with ⟨_, rfl⟩ | ⟨_, _, rfl⟩ | ⟨_, _, w, hd, rfl⟩
    · exact hm
    · exact hm
    · have hw := deliver_ok_wf hd hm
      exact hw
  rcases step_cases hs with ⟨_, rfl⟩ | ⟨_, hp⟩ | ⟨_, u, hp, hf⟩ | ⟨_, u, i, v, hp, hf, he⟩
  · exact hm
  · obtain ⟨_, _, hd⟩ := timerPhase_eq_stopped.1 hp
    exact deliver_stopped_wf hd hm
  · have hu := htimer hp
    obtain ⟨_, _, _, rfl⟩ := fetch_stopped_shape hf
    exact hu
  · have hu := htimer hp
    obtain ⟨_, _, _, rfl⟩ := fetch_ok_shape hf
    exact (exec_effect he).wf hu

/-! The step, field by field. -/

theorem keepsData_of_timerPhase_ok (h : timerPhase s = .ok () t) : KeepsData s t := by
  obtain ⟨c, rfl | ⟨_, sp, m, rfl⟩⟩ := timerPhase_ok_shape h <;> exact ⟨rfl, rfl, rfl, rfl, rfl⟩

/-- A step that writes any of this does so in an instruction's meaning, with the instruction's number in `IR`. -/
theorem step_keepsData_or_effect (h : step s = .next t) :
    KeepsData s t ∨ ∃ i v, KeepsData s v ∧ v.ir = s.cfg.opc.num i.op ∧ Effect v i t := by
  rcases step_cases h with ⟨_, rfl⟩ | ⟨_, hp⟩ | ⟨_, u, hp, hf⟩ | ⟨_, u, i, v, hp, hf, he⟩
  · exact .inl ⟨rfl, rfl, rfl, rfl, rfl⟩
  · obtain ⟨_, _, _, _, _, _, rfl⟩ := timerPhase_stopped_shape hp
    exact .inl ⟨rfl, rfl, rfl, rfl, rfl⟩
  · obtain ⟨_, _, _, rfl⟩ := fetch_stopped_shape hf
    obtain ⟨hcfg, hac, hout, hnext, hdraws⟩ := keepsData_of_timerPhase_ok hp
    exact .inl ⟨hcfg, hac, hout, hnext, hdraws⟩
  · obtain ⟨hcfg, hac, hout, hnext, hdraws⟩ := keepsData_of_timerPhase_ok hp
    refine .inr ⟨i, v, ?_, ?_, exec_effect he⟩ <;> obtain ⟨_, _, _, rfl⟩ := fetch_ok_shape hf
    · exact ⟨hcfg, hac, hout, hnext, hdraws⟩
    · exact congrArg (fun p : Params => p.opc.num i.op) hcfg

/-- Settles O20: neither the phases before the meaning write the configuration, nor any meaning. -/
theorem stepKeepsConfiguration : Obligations.StepKeepsConfiguration := by
  intro s t hs
  rcases step_keepsData_or_effect hs with hk | ⟨i, v, hk, _, he⟩
  · exact hk.cfg
  · exact he.cfg_ir_countdown.1.trans hk.cfg

/-- Settles O21: `IR` still holds PUT's number after PUT's meaning. -/
theorem outputOnlyByPut : Obligations.OutputOnlyByPut := by
  intro s t hs
  rcases step_keepsData_or_effect hs with hk | ⟨i, v, hk, hir, he⟩
  · exact .inl hk.output
  · obtain ⟨_, hirt, _⟩ := he.cfg_ir_countdown
    rcases he.output with ho | ⟨hi, k, ho⟩
    · exact .inl (ho.trans hk.output)
    · exact .inr ⟨by rw [hirt, hir, hi]; rfl, k, by rw [ho, hk.output, hk.ac]⟩

/-- Settles O22: `IR` still holds GET's number after GET's meaning. -/
theorem drawsOnlyByGet : Obligations.DrawsOnlyByGet := by
  intro s t hs
  rcases step_keepsData_or_effect hs with hk | ⟨i, v, hk, hir, he⟩
  · exact .inl ⟨hk.draws, hk.randomNext⟩
  · obtain ⟨_, hirt, _⟩ := he.cfg_ir_countdown
    rcases he.draws with ⟨hd, hr⟩ | ⟨hi, hd, hr⟩
    · exact .inl ⟨hd.trans hk.draws, hr.trans hk.randomNext⟩
    · exact .inr ⟨by rw [hirt, hir, hi]; rfl, by rw [hd, hk.draws], by rw [hr, hk.randomNext]⟩

/-- Settles O10: each phase that stops faults, and a meaning that does not fault stops exactly if it is END's. END is the only
instruction that is run with END's number in `IR`, since the decoder tries END first. -/
theorem stopsExactlyByFaultOrEnd : Obligations.StopsExactlyByFaultOrEnd := by
  intro s t hr hnf hs
  have hfaulted : t.Faulted → (t.running = false ↔ t.fault ≠ none ∨ t.ir = s.cfg.opc.halt) :=
    fun ⟨hrun, hf⟩ => iff_of_true hrun (.inl hf)
  rcases step_cases hs with ⟨hr', _⟩ | ⟨_, hp⟩ | ⟨_, u, _, hf⟩ | ⟨_, u, i, v, hp, hf, he⟩
  · simp [hr] at hr'
  · obtain ⟨_, _, _, _, _, _, rfl⟩ := timerPhase_stopped_shape hp
    exact hfaulted (by simp [State.Faulted])
  · obtain ⟨_, _, _, rfl⟩ := fetch_stopped_shape hf
    exact hfaulted (by simp [State.Faulted])
  · have hu : u.cfg = s.cfg ∧ u.running = true ∧ u.fault = none := by
      obtain ⟨_, rfl | ⟨_, _, _, rfl⟩⟩ := timerPhase_ok_shape hp <;> exact ⟨rfl, hr, hnf⟩
    obtain ⟨hcfg, hru, hfu⟩ := hu
    obtain ⟨hd, pc, latch, rfl⟩ := fetch_ok_shape hf
    have hir : t.ir = s.cfg.opc.num i.op := by simp [(exec_effect he).cfg_ir_countdown.2.1, hcfg]
    rcases (exec_effect he).running_fault with hft | ⟨rfl, rfl⟩ | ⟨hi, hrun, hfault⟩
    · exact hfaulted hft
    · exact iff_of_true rfl (.inr hir)
    · refine iff_of_false (by simp [hrun, hru]) ?_
      rintro (hne | hhalt)
      · exact hne (hfault.trans hfu)
      · rw [hcfg, ← hir, hhalt, decodeOp_halt] at hd
        exact hi (eq_halt_of_op (Option.some.inj hd).symm)

/-! Modes. -/

/-- A step changes mode and mask in its timer phase or in a meaning by INT or IRET, never in the fetch between. -/
theorem step_mode_cases (h : step s = .next t) :
    (t.inSystemMode = s.inSystemMode ∧ t.interruptsEnabled = s.interruptsEnabled) ∨
    ∃ u, timerPhase s = .ok () u ∧
      ((t.inSystemMode = u.inSystemMode ∧ t.interruptsEnabled = u.interruptsEnabled) ∨
       (t.ir = s.cfg.opc.int ∧ u.interruptsEnabled = true ∧ t.inSystemMode = true ∧ t.interruptsEnabled = false ∧
        t.pc = s.cfg.syscallVector) ∨
       (t.ir = s.cfg.opc.iret ∧ t.inSystemMode = false ∧ t.interruptsEnabled = true ∧ t.systemSp = s.cfg.systemSpInit)) := by
  rcases step_cases h with ⟨_, rfl⟩ | ⟨_, hp⟩ | ⟨_, u, hp, hf⟩ | ⟨_, u, i, v, hp, hf, he⟩
  · exact .inl ⟨rfl, rfl⟩
  · obtain ⟨_, _, _, _, _, _, rfl⟩ := timerPhase_stopped_shape hp
    exact .inl ⟨rfl, rfl⟩
  · obtain ⟨_, _, _, rfl⟩ := fetch_stopped_shape hf
    exact .inr ⟨u, hp, .inl ⟨rfl, rfl⟩⟩
  · have hcfg : u.cfg = s.cfg := (keepsData_of_timerPhase_ok hp).cfg
    obtain ⟨_, pc, latch, rfl⟩ := fetch_ok_shape hf
    have hir : t.ir = s.cfg.opc.num i.op := by simp [(exec_effect he).cfg_ir_countdown.2.1, hcfg]
    refine .inr ⟨u, hp, ?_⟩
    rcases (exec_effect he).mode with hm | ⟨hi, hint, hm, hmask, hpc⟩ | ⟨hi, hm, hmask, hsp⟩
    · exact .inl hm
    · exact .inr (.inl ⟨by rw [hir, hi]; rfl, hint, hm, hmask, by simpa [hcfg] using hpc⟩)
    · exact .inr (.inr ⟨by rw [hir, hi]; rfl, hm, hmask, by simpa [hcfg] using hsp⟩)

/-- Phase 1 leaves mode and mask alone unless the timer fires, which begins in user mode and ends in system mode, masked. -/
theorem timerPhase_mode_cases (h : timerPhase s = .ok () t) :
    (t.inSystemMode = s.inSystemMode ∧ t.interruptsEnabled = s.interruptsEnabled) ∨
    (s.inSystemMode = false ∧ timerFires s = true ∧ t.inSystemMode = true ∧ t.interruptsEnabled = false) := by
  obtain ⟨_, rfl | ⟨hf, _, _, rfl⟩⟩ := timerPhase_ok_shape h
  · exact .inl ⟨rfl, rfl⟩
  · exact .inr ⟨(timerFires_iff.1 hf).1, hf, rfl, rfl⟩

/-- Settles O19: mode and mask are written together, and opposite (`State.setMode` in a delivery and in a return). -/
theorem stepKeepsMaskOppositeToMode : Obligations.StepKeepsMaskOppositeToMode := by
  intro s t hmask hs
  rcases step_mode_cases hs with ⟨hm, hi⟩ | ⟨u, hp, hcase⟩
  · rw [hm, hi, hmask]
  · have hu : u.interruptsEnabled = !u.inSystemMode := by
      rcases timerPhase_mode_cases hp with ⟨hm, hi⟩ | ⟨_, _, hm, hi⟩
      · rw [hm, hi, hmask]
      · rw [hm, hi]; rfl
    rcases hcase with ⟨hm, hi⟩ | ⟨_, _, hm, hi, _⟩ | ⟨_, hm, hi, _⟩
    · rw [hm, hi, hu]
    · rw [hm, hi]; rfl
    · rw [hm, hi]; rfl

/-- Settles O23: from user mode the mode changes in the timer phase, or in the meaning by INT. -/
theorem systemModeEnteredOnlyByDelivery : Obligations.SystemModeEnteredOnlyByDelivery := by
  intro s t hs hu ht
  rcases step_mode_cases hs with ⟨hm, _⟩ | ⟨u, hp, hcase⟩
  · simp [hm, hu] at ht
  · rcases timerPhase_mode_cases hp with ⟨hmu, hiu⟩ | ⟨_, hf, _, hiu⟩
    · rcases hcase with ⟨hm, _⟩ | ⟨hir, hint, _, hmask, hpc⟩ | ⟨_, hm, _⟩
      · simp [hm, hmu, hu] at ht
      · exact ⟨hmask, .inr ⟨hiu ▸ hint, hir, hpc⟩⟩
      · simp [hm] at ht
    · rcases hcase with ⟨_, hi⟩ | ⟨_, _, _, hmask, _⟩ | ⟨_, hm, _⟩
      · exact ⟨hi.trans hiu, .inl hf⟩
      · exact ⟨hmask, .inl hf⟩
      · simp [hm] at ht

/-- Settles O24: the timer is frozen in system mode, and of the meanings only IRET's leaves it. -/
theorem systemModeLeftOnlyByIret : Obligations.SystemModeLeftOnlyByIret := by
  intro s t hs hsys ht
  rcases step_mode_cases hs with ⟨hm, _⟩ | ⟨u, hp, hcase⟩
  · simp [hm, hsys] at ht
  · have hu : u.inSystemMode = true := by
      rcases timerPhase_mode_cases hp with ⟨hm, _⟩ | ⟨_, _, hm, _⟩
      · exact hm.trans hsys
      · exact hm
    rcases hcase with ⟨hm, _⟩ | ⟨_, _, hm, _⟩ | ⟨hir, _, hmask, hsp⟩
    · simp [hm, hu] at ht
    · simp [hm] at ht
    · exact ⟨hir, hmask, hsp⟩

/-! The countdown. -/

/-- Only the timer phase writes the countdown. -/
theorem step_countdown_of_timerPhase_ok (h : step s = .next t) (hr : s.running = true) (hp : timerPhase s = .ok () u) :
    t.countdown = u.countdown := by
  rcases step_cases h with ⟨hr', _⟩ | ⟨_, hp'⟩ | ⟨_, u', hp', hf⟩ | ⟨_, u', i, v, hp', hf, he⟩
  · simp [hr] at hr'
  · simp [hp] at hp'
  · obtain rfl : u = u' := by simpa [hp] using hp'
    obtain ⟨_, _, _, rfl⟩ := fetch_stopped_shape hf
    rfl
  · obtain rfl : u = u' := by simpa [hp] using hp'
    obtain ⟨_, _, _, rfl⟩ := fetch_ok_shape hf
    exact (exec_effect he).cfg_ir_countdown.2.2

/-- Settles O13, by the three ways through the timer phase. -/
theorem countdownPerStep : Obligations.CountdownPerStep := by
  intro s t hs
  refine ⟨fun hidle => ?frozen, fun hr hu hpos => ?ticked, fun hr hu hle h1 h2 => ?reloaded⟩
  case frozen =>
    cases hr : s.running with
    | false =>
      rw [step_of_not_running hr] at hs
      cases hs
      rfl
    | true =>
      have hm : s.inSystemMode = true := hidle.resolve_left (by simp [hr])
      exact step_countdown_of_timerPhase_ok hs hr (timerPhase_eq_ok.2 (.inl ⟨hm, rfl⟩))
  case ticked =>
    have hf : timerFires s = false := timerFires_eq_false_iff.2 (.inr hpos)
    exact step_countdown_of_timerPhase_ok hs hr (timerPhase_eq_ok.2 (.inr (.inl ⟨hu, hf, rfl⟩)))
  case reloaded =>
    have hf : timerFires s = true := timerFires_iff.2 ⟨hu, hle⟩
    have hd := deliver_eq_ok (u := ()) (target := s.cfg.timerVector)
      (s := s.setCountdown (wrap s.cfg.xlen (s.countdown - 1))) |>.2 ⟨h1, h2, rfl⟩
    exact step_countdown_of_timerPhase_ok hs hr (timerPhase_of_fires hf hd)

/-- The number of user-steps a step counts for is 1 or 0 (R135). -/
def userStep (s : State) : Nat := if s.running = true ∧ s.inSystemMode = false then 1 else 0

/-- Over one step from a state of the invariant, the ticks since the countdown was last the period go up by the step's
user-steps, modulo the period. -/
theorem Inv.step_ticks (h : Inv s) (hs : step s = .next t) :
    (s.cfg.timerPeriod - t.countdown) % s.cfg.timerPeriod =
      (s.cfg.timerPeriod - s.countdown + userStep s) % s.cfg.timerPeriod := by
  obtain ⟨hfrozen, hticked, hreloaded⟩ := countdownPerStep s t hs
  have hwrap : s.word (s.countdown - 1) = s.countdown - 1 := h.wrap_countdown_sub_one
  rw [hwrap] at hticked hreloaded
  by_cases hstep : s.running = true ∧ s.inSystemMode = false
  · obtain ⟨hr, hu⟩ := hstep
    simp only [userStep, hr, hu, and_self, if_true]
    by_cases hpos : 0 < s.countdown - 1
    · rw [hticked hr hu hpos]
      congr 1
      push_cast
      ring
    · have hone : s.countdown = 1 := by have := h.countdown.1; omega
      obtain ⟨h1, h2⟩ := h.delivery_inRange hu
      rw [hreloaded hr hu (by omega) h1 h2, hone]
      simp
  · have hsame : t.countdown = s.countdown := hfrozen <|
      (not_and_or.1 hstep).imp Bool.eq_false_of_not_eq_true Bool.eq_true_of_not_eq_false
    simp [userStep, hstep, hsame]

/-- From a state of the invariant, a run of any length goes on in the invariant under the same configuration, and the ticks
since the countdown was last the period go up by its user-steps, modulo the period. -/
theorem Inv.runFor_ticks (n : Nat) (h : Inv s) :
    ∃ t, runFor n s = .next t ∧ Inv t ∧ t.cfg = s.cfg ∧
      (s.cfg.timerPeriod - t.countdown) % s.cfg.timerPeriod =
        (s.cfg.timerPeriod - s.countdown + userSteps n s) % s.cfg.timerPeriod := by
  induction n generalizing s with
  | zero => exact ⟨s, rfl, h, rfl, by simp [userSteps]⟩
  | succ n ih =>
    obtain ⟨u, hu⟩ := stepAlwaysAnswersNext s
    obtain ⟨t, hrun, ht, hcfg, hticks⟩ := ih (stepKeepsInvariant s u h hu)
    have hcfgu := stepKeepsConfiguration s u hu
    rw [hcfgu] at hcfg hticks
    refine ⟨t, (runFor_succ hu n).trans hrun, ht, hcfg, ?_⟩
    have hcount : (userSteps (n + 1) s : Int) = userStep s + userSteps n u := by
      rw [userSteps_succ hu, Nat.cast_add]
      rfl
    calc (s.cfg.timerPeriod - t.countdown) % s.cfg.timerPeriod
        = (s.cfg.timerPeriod - u.countdown + userSteps n u) % s.cfg.timerPeriod := hticks
      _ = (s.cfg.timerPeriod - s.countdown + userStep s + userSteps n u) % s.cfg.timerPeriod := by
          rw [Int.add_emod, h.step_ticks hu, ← Int.add_emod]
      _ = (s.cfg.timerPeriod - s.countdown + userSteps (n + 1) s) % s.cfg.timerPeriod := by
          rw [hcount, add_assoc]

/-- Under the invariant the timer fires in user mode exactly at countdown 1. -/
theorem Inv.timerFires_iff_countdown (h : Inv s) (hu : s.inSystemMode = false) : timerFires s = true ↔ s.countdown = 1 := by
  rw [timerFires_iff, h.wrap_countdown_sub_one]
  have := h.countdown.1
  constructor
  · rintro ⟨_, hle⟩
    omega
  · intro hone
    exact ⟨hu, by omega⟩

/-- Adding one reaches a multiple of `N` exactly from the remainder `N - 1`. -/
theorem add_one_emod_eq_zero_iff {N : Int} (hN : 1 ≤ N) (k : Int) : (k + 1) % N = 0 ↔ k % N = N - 1 := by
  have h0 := Int.emod_nonneg k (b := N) (by omega)
  have h1 := Int.emod_lt_of_pos k (b := N) (by omega)
  rw [← Int.emod_add_emod]
  constructor
  · intro hz
    by_contra hne
    rw [Int.emod_eq_of_lt (by omega) (by omega)] at hz
    omega
  · intro he
    simp [he]

/-- Settles O14: the ticks of the run (`Inv.runFor_ticks`) are less than the period, so they are their own remainder. -/
theorem timerPeriodicity : Obligations.TimerPeriodicity := by
  intro s n h
  obtain ⟨t, hrun, ht, hcfg, hticks⟩ := h.runFor_ticks n
  have hN := h.config.period.1
  obtain ⟨hlo, hhi⟩ := ht.countdown
  rw [hcfg] at hhi
  rw [Int.emod_eq_of_lt (a := s.cfg.timerPeriod - t.countdown) (by omega) (by omega)] at hticks
  refine ⟨t, hrun, by omega, fun hu => ?_⟩
  rw [ht.timerFires_iff_countdown hu, add_one_emod_eq_zero_iff hN]
  omega

/-! Which registers and cells a meaning can change. -/

/-- Settles O25, by the shapes of `Effect`: a stack instruction writes the active pointer. -/
theorem stackPointersAreBanked : Obligations.StackPointersAreBanked := by
  intro i s t he
  refine ⟨fun hu hi => ?user, fun hm hi => ?system⟩
  case user =>
    cases exec_effect he with
    | trapped | trapFaulted => exact absurd rfl hi
    | resumed hm | resumeFaulted hm => simp [hu] at hm
    | _ => simp [hu]
  case system =>
    cases exec_effect he with
    | trapped _ hd => obtain ⟨_, _, rfl⟩ := deliver_ok_shape hd; rfl
    | trapFaulted _ hd => obtain ⟨_, _, _, rfl⟩ := deliver_stopped_shape hd; rfl
    | resumed | resumeFaulted => exact absurd rfl hi
    | _ => simp [hm]

/-- Settles O26, by the shapes of `Effect`. -/
theorem onlyControlTransfersWritePc : Obligations.OnlyControlTransfersWritePc := by
  intro i s t he hi
  cases exec_effect he with
  | jumped _ hj => simp at hi hj; tauto
  | called | returned | trapped | trapFaulted | resumed | resumeFaulted => simp [Instr.op] at hi
  | _ => simp

/-- Settles O30, by the shapes of `Effect`: STORE is checked, so in user mode its cell lies outside the system zone. -/
theorem userModeWritesSystemZoneOnlyByStackOrTrap : Obligations.UserModeWritesSystemZoneOnlyByStackOrTrap := by
  intro i s t a hu hi he h0 h1
  cases exec_effect he with
  | stored b hallowed hr =>
    have hne : b.toNat ≠ a := by
      rintro rfl
      have hz : inSystemZone s.cfg b = true := inSystemZone_iff.2 (by have := inRange_iff.1 hr; omega)
      simp [hu, hz] at hallowed
    exact readCell_writeCell_other s.mem s.ac hne
  | pushed | called | trapped | trapFaulted => simp [Instr.op] at hi
  | resumed hm | resumeFaulted hm => simp [hu] at hm
  | _ => simp

end Sys2Proof.Machine
end

section
/-! PROOF. The memory port, the protection checker, the loads and the store (spec/20_memory.md, spec/41_load_store.md). -/

namespace Sys2Proof.Machine

variable {s : State} {a : Int}

/-- A write of one cell holds the word there and every other cell as it was (R33). -/
theorem storesOnly_writeCell (hm : Memory.wf s.cfg.memInit s.mem) (b : Nat) (v : Int) :
    StoresOnly s (writeCell s.cfg.memInit s.mem b v) b v :=
  ⟨readCell_writeCell_same hm b v, fun _ hc => readCell_writeCell_other s.mem v hc.symm⟩

/-- Settles O27: two valid addresses are two cells, so the laws of `writeCell` apply. -/
theorem readGivesLatestWrite : Obligations.ReadGivesLatestWrite := by
  intro s t a v hm hw
  obtain ⟨ha, rfl⟩ := memWrite_eq_ok.1 hw
  obtain ⟨hsame, hother⟩ := storesOnly_writeCell hm a.toNat v
  refine ⟨memRead_eq_ok.2 ⟨ha, hsame.symm, rfl⟩, fun b hne hb => ?_⟩
  have hcell : b.toNat ≠ a.toNat := by
    have := inRange_iff.1 ha
    have := inRange_iff.1 hb
    omega
  exact memRead_eq_ok.2 ⟨hb, (hother b.toNat hcell).symm, rfl⟩

/-! A checked read, by whether the checker and the memory let it pass. -/

theorem readChecked_of_allowed (h : Allowed s a) (hr : inRange s.cfg a = true) : readChecked a s = .ok (s.cell a.toNat) s :=
  readChecked_eq_ok.2 ⟨h, hr, rfl, rfl⟩

theorem readChecked_of_protected (hu : s.inSystemMode = false) (hz : inSystemZone s.cfg a = true) :
    readChecked a s = .stopped (s.stoppedBy (.protectionFault a s.ir (s.word (s.pc - 2)))) :=
  readChecked_eq_stopped.2 (.inl ⟨⟨hu, hz⟩, rfl⟩)

theorem readChecked_of_not_inRange (h : Allowed s a) (hr : inRange s.cfg a = false) :
    readChecked a s = .stopped (s.stoppedBy (.memRangeFault a)) :=
  readChecked_eq_stopped.2 (.inr ⟨h, hr, rfl⟩)

/-! The meanings over the shared operations. -/

/-- LOADA (R71). -/
theorem exec_loada (a : Int) (s : State) : exec (.loada a) s = (intoAc (readChecked a s)).outcome := rfl

/-- LOADIND (R72). -/
theorem exec_loadind (a : Int) (s : State) :
    exec (.loadind a) s = (intoAc ((readChecked a s).andThen fun p s => readChecked p s)).outcome := rfl

/-- LOADIND past its pointer cell is a checked read through the pointer. -/
theorem exec_loadind_of_allowed (h : Allowed s a) (hr : inRange s.cfg a = true) :
    exec (.loadind a) s = (intoAc (readChecked (s.cell a.toNat) s)).outcome := by
  rw [exec_loadind, readChecked_of_allowed h hr, andThen_ok]

/-- LOADIDXX (R73). -/
theorem exec_loadidxx (b : Int) (s : State) :
    exec (.loadidxx b) s = (intoAc (readChecked (s.word (b + s.x)) s)).outcome := rfl

/-- LOADIDXY (R74). -/
theorem exec_loadidxy (b : Int) (s : State) :
    exec (.loadidxy b) s = (intoAc (readChecked (s.word (b + s.y)) s)).outcome := rfl

/-- LOADSPX (R75): no check. -/
theorem exec_loadspx (s : State) : exec .loadspx s = (intoAc (memRead (s.word (activeSp s + s.x)) s)).outcome := rfl

/-- STORE (R76). -/
theorem exec_store (a : Int) (s : State) : exec (.store a) s = (writeChecked a s.ac s).outcome := rfl

/-- Settles O33, one clause per instruction, each a checked read that passes. -/
theorem checkedLoadsReadTheirAddress : Obligations.CheckedLoadsReadTheirAddress := by
  refine ⟨fun s a h hr => ?loada, fun s b h hr => ?loadidxx, fun s b h hr => ?loadidxy⟩
  case loada => rw [exec_loada, readChecked_of_allowed h hr]; rfl
  case loadidxx => rw [exec_loadidxx, readChecked_of_allowed h hr]; rfl
  case loadidxy => rw [exec_loadidxy, readChecked_of_allowed h hr]; rfl

/-- Settles O34: two checked reads that pass. -/
theorem loadindReadsThroughPointer : Obligations.LoadindReadsThroughPointer := by
  intro s a h hr hp hpr
  rw [exec_loadind_of_allowed h hr, readChecked_of_allowed hp hpr]
  rfl

/-- LOADSPX reads at the active stack pointer plus `X`, in either mode. -/
theorem exec_loadspx_of_inRange (hr : inRange s.cfg (s.word (activeSp s + s.x)) = true) :
    exec .loadspx s = .next (s.setAc (s.cell (s.word (activeSp s + s.x)).toNat)) := by
  rw [exec_loadspx, memRead_eq_ok.2 ⟨hr, rfl, rfl⟩]
  rfl

/-- Settles O35, by mode. -/
theorem loadspxReadsStackRelative : Obligations.LoadspxReadsStackRelative := by
  intro s
  refine ⟨fun hu hr => ?user, fun hm hr => ?system⟩
  case user =>
    have he := exec_loadspx_of_inRange (s := s) (by rwa [activeSp_user hu])
    rw [activeSp_user hu] at he
    exact he
  case system =>
    have he := exec_loadspx_of_inRange (s := s) (by rwa [activeSp_system hm])
    rw [activeSp_system hm] at he
    exact he

/-- Settles O36: the write passes the checker and the range, and is a write of one cell. -/
theorem storeWritesOnlyItsCell : Obligations.StoreWritesOnlyItsCell := by
  intro s a hm h hr
  refine ⟨_, ?_, storesOnly_writeCell hm a.toNat s.ac⟩
  rw [exec_store, writeChecked_eq_ok (u := ()).2 ⟨h, hr, rfl⟩]
  rfl

/-- Settles O28, one clause per address that is checked: the checker stops the read or the write. -/
theorem checkedAccessFaultsInUserMode : Obligations.CheckedAccessFaultsInUserMode := by
  intro s hu
  refine ⟨fun a hz => ⟨?loada, ?store, ?loadind⟩, fun b hz => ?loadidxx, fun b hz => ?loadidxy, fun a hz hr hp => ?pointer⟩
  case loada => rw [exec_loada, readChecked_of_protected hu hz]; rfl
  case store => rw [exec_store, writeChecked_eq_stopped.2 (.inl ⟨⟨hu, hz⟩, rfl⟩)]; rfl
  case loadind => rw [exec_loadind, readChecked_of_protected hu hz]; rfl
  case loadidxx => rw [exec_loadidxx, readChecked_of_protected hu hz]; rfl
  case loadidxy => rw [exec_loadidxy, readChecked_of_protected hu hz]; rfl
  case pointer => rw [exec_loadind_of_allowed (.inr hz) hr, readChecked_of_protected hu hp]; rfl

/-- Settles O29, one clause per address that is accessed: the memory stops what the checker lets pass. -/
theorem dataAccessOutOfRangeStops : Obligations.DataAccessOutOfRangeStops := by
  intro s
  refine ⟨fun a h hr => ⟨?loada, ?store, ?loadind⟩, fun b h hr => ?loadidxx, fun b h hr => ?loadidxy,
    fun a h hr hp hpr => ?pointer, fun hr => ?loadspx⟩
  case loada => rw [exec_loada, readChecked_of_not_inRange h hr]; rfl
  case store => rw [exec_store, writeChecked_eq_stopped.2 (.inr ⟨h, hr, rfl⟩)]; rfl
  case loadind => rw [exec_loadind, readChecked_of_not_inRange h hr]; rfl
  case loadidxx => rw [exec_loadidxx, readChecked_of_not_inRange h hr]; rfl
  case loadidxy => rw [exec_loadidxy, readChecked_of_not_inRange h hr]; rfl
  case pointer => rw [exec_loadind_of_allowed h hr, readChecked_of_not_inRange hp hpr]; rfl
  case loadspx => rw [exec_loadspx, memRead_eq_stopped.2 ⟨hr, rfl⟩]; rfl

end Sys2Proof.Machine
end

section
/-! PROOF. The stack (spec/43_control_stack.md sections 1 to 3): each stack instruction on the active stack pointer, then by
mode. -/

namespace Sys2Proof.Machine

variable {s t u : State} {v : Int}

/-! The meanings over `push` and `pop`, and where these go on and stop. -/

/-- CALL (R95). -/
theorem exec_call (a : Int) (s : State) :
    exec (.call a) s = ((push s.pc s).andThen fun _ t => .ok () (t.setPc a)).outcome := rfl

/-- RET (R96). -/
theorem exec_ret (s : State) : exec .ret s = ((pop s).andThen fun v t => .ok () (t.setPc v)).outcome := rfl

/-- PUSH (R97). -/
theorem exec_push (s : State) : exec .push s = (push s.ac s).outcome := rfl

/-- POP (R98). -/
theorem exec_pop (s : State) : exec .pop s = (intoAc (pop s)).outcome := rfl

/-- The state after a push that does not fault. -/
def pushed (v : Int) (s : State) : State :=
  (setActiveSp s (s.word (activeSp s - 1))).setMem (writeCell s.cfg.memInit s.mem (s.word (activeSp s - 1)).toNat v)

theorem push_of_inRange (v : Int) (h : inRange s.cfg (s.word (activeSp s - 1)) = true) : push v s = .ok () (pushed v s) :=
  push_eq_ok.2 ⟨h, rfl⟩

theorem push_of_not_inRange (v : Int) (h : inRange s.cfg (s.word (activeSp s - 1)) = false) :
    push v s = .stopped ((setActiveSp s (s.word (activeSp s - 1))).stoppedBy (.memRangeFault (s.word (activeSp s - 1)))) :=
  push_eq_stopped.2 ⟨h, rfl⟩

theorem pop_of_inRange (h : inRange s.cfg (activeSp s) = true) :
    pop s = .ok (s.cell (activeSp s).toNat) (setActiveSp s (s.word (activeSp s + 1))) :=
  pop_eq_ok.2 ⟨h, rfl, rfl⟩

theorem pop_of_not_inRange (h : inRange s.cfg (activeSp s) = false) :
    pop s = .stopped (s.stoppedBy (.memRangeFault (activeSp s))) :=
  pop_eq_stopped.2 ⟨h, rfl⟩

theorem exec_push_of_inRange (h : inRange s.cfg (s.word (activeSp s - 1)) = true) :
    exec .push s = .next (pushed s.ac s) := by
  rw [exec_push, push_of_inRange _ h, outcome_ok]

theorem exec_call_of_inRange (a : Int) (h : inRange s.cfg (s.word (activeSp s - 1)) = true) :
    exec (.call a) s = .next ((pushed s.pc s).setPc a) := by
  rw [exec_call, push_of_inRange _ h, andThen_ok, outcome_ok]

theorem exec_push_of_not_inRange (h : inRange s.cfg (s.word (activeSp s - 1)) = false) :
    exec .push s =
      .next ((setActiveSp s (s.word (activeSp s - 1))).stoppedBy (.memRangeFault (s.word (activeSp s - 1)))) := by
  rw [exec_push, push_of_not_inRange _ h, outcome_stopped]

theorem exec_call_of_not_inRange (a : Int) (h : inRange s.cfg (s.word (activeSp s - 1)) = false) :
    exec (.call a) s =
      .next ((setActiveSp s (s.word (activeSp s - 1))).stoppedBy (.memRangeFault (s.word (activeSp s - 1)))) := by
  rw [exec_call, push_of_not_inRange _ h, andThen_stopped, outcome_stopped]

theorem exec_ret_of_inRange (h : inRange s.cfg (activeSp s) = true) :
    exec .ret s = .next ((setActiveSp s (s.word (activeSp s + 1))).setPc (s.cell (activeSp s).toNat)) := by
  rw [exec_ret, pop_of_inRange h, andThen_ok, outcome_ok]

theorem exec_pop_of_inRange (h : inRange s.cfg (activeSp s) = true) :
    exec .pop s = .next ((setActiveSp s (s.word (activeSp s + 1))).setAc (s.cell (activeSp s).toNat)) := by
  rw [exec_pop, pop_of_inRange h, intoAc_ok, outcome_ok]

/-- Settles O40, by mode. -/
theorem copiesUseActiveStackPointer : Obligations.CopiesUseActiveStackPointer := by
  have hto : ∀ s : State, exec .copytosp s = .next (setActiveSp s s.ac) := fun _ => rfl
  have hfrom : ∀ s : State, exec .copyfromsp s = .next (s.setAc (activeSp s)) := fun _ => rfl
  intro s
  refine ⟨fun hu => ?user, fun hm => ?system⟩
  case user => rw [hto, hfrom, setActiveSp_user hu, activeSp_user hu]; exact ⟨rfl, rfl⟩
  case system => rw [hto, hfrom, setActiveSp_system hm, activeSp_system hm]; exact ⟨rfl, rfl⟩

/-- Settles O42, by mode: the write of `pushed` is a write of one cell. -/
theorem callAndPushStoreOnActiveStack : Obligations.CallAndPushStoreOnActiveStack := by
  intro s hw
  refine ⟨fun hu hr => ?user, fun hm hr => ?system⟩
  case user =>
    rw [← activeSp_user hu] at hr ⊢
    refine ⟨fun a => ⟨_, ?_, storesOnly_writeCell hw _ _⟩, _, ?_, storesOnly_writeCell hw _ _⟩
    · rw [exec_call_of_inRange a hr, pushed, setActiveSp_user hu]; rfl
    · rw [exec_push_of_inRange hr, pushed, setActiveSp_user hu]; rfl
  case system =>
    rw [← activeSp_system hm] at hr ⊢
    refine ⟨fun a => ⟨_, ?_, storesOnly_writeCell hw _ _⟩, _, ?_, storesOnly_writeCell hw _ _⟩
    · rw [exec_call_of_inRange a hr, pushed, setActiveSp_system hm]; rfl
    · rw [exec_push_of_inRange hr, pushed, setActiveSp_system hm]; rfl

/-- Settles O43, by mode. -/
theorem retAndPopReadActiveStack : Obligations.RetAndPopReadActiveStack := by
  intro s
  refine ⟨fun hu hr => ?user, fun hm hr => ?system⟩
  case user =>
    rw [← activeSp_user hu] at hr ⊢
    rw [exec_ret_of_inRange hr, exec_pop_of_inRange hr, setActiveSp_user hu]
    exact ⟨rfl, rfl⟩
  case system =>
    rw [← activeSp_system hm] at hr ⊢
    rw [exec_ret_of_inRange hr, exec_pop_of_inRange hr, setActiveSp_system hm]
    exact ⟨rfl, rfl⟩

/-- Settles O44: the pushes by mode, the pops on the active stack pointer. -/
theorem stackAccessOutOfRangeStops : Obligations.StackAccessOutOfRangeStops := by
  intro s
  refine ⟨fun hu hr => ?user, fun hm hr => ?system, fun hr => ⟨?pop, ?ret⟩⟩
  case user =>
    rw [← activeSp_user hu] at hr ⊢
    refine ⟨?_, fun a => ?_⟩
    · rw [exec_push_of_not_inRange hr, setActiveSp_user hu]; rfl
    · rw [exec_call_of_not_inRange a hr, setActiveSp_user hu]; rfl
  case system =>
    rw [← activeSp_system hm] at hr ⊢
    refine ⟨?_, fun a => ?_⟩
    · rw [exec_push_of_not_inRange hr, setActiveSp_system hm]; rfl
    · rw [exec_call_of_not_inRange a hr, setActiveSp_system hm]; rfl
  case pop => rw [exec_pop, pop_of_not_inRange hr, intoAc_stopped, outcome_stopped]
  case ret => rw [exec_ret, pop_of_not_inRange hr, andThen_stopped, outcome_stopped]

/-! Stack discipline (R91, R96). -/

/-- Two states with the same stack: memory, mode and both stack pointers, under one configuration. -/
structure SameStack (u t : State) : Prop where
  mem : u.mem = t.mem
  cfg : u.cfg = t.cfg
  inSystemMode : u.inSystemMode = t.inSystemMode
  userSp : u.userSp = t.userSp
  systemSp : u.systemSp = t.systemSp

theorem SameStack.activeSp (h : SameStack u t) : activeSp u = activeSp t := by
  simp [Machine.activeSp, h.inSystemMode, h.userSp, h.systemSp]

/-- After a push the active stack pointer is one less, wrapped. -/
theorem activeSp_pushed (v : Int) (s : State) : activeSp (pushed v s) = s.word (activeSp s - 1) := by
  cases hm : s.inSystemMode <;> simp [pushed, activeSp, hm]

/-- Writing back the active stack pointer of before a push gives both pointers of before it. -/
theorem setActiveSp_of_sameStack_pushed (h : SameStack u (pushed v s)) :
    setActiveSp u (activeSp s) = { u with userSp := s.userSp, systemSp := s.systemSp } := by
  have hmode := h.inSystemMode
  have huser := h.userSp
  have hsystem := h.systemSp
  cases hm : s.inSystemMode with
  | false =>
    have hu : u.inSystemMode = false := by simpa [pushed, hm] using hmode
    have hs : u.systemSp = s.systemSp := by simpa [pushed, hm] using hsystem
    rw [setActiveSp_user hu, activeSp_user hm, ← hs]
    rfl
  | true =>
    have hu : u.inSystemMode = true := by simpa [pushed, hm] using hmode
    have hs : u.userSp = s.userSp := by simpa [pushed, hm] using huser
    rw [setActiveSp_system hu, activeSp_system hm, ← hs]
    rfl

/-- With the stack of after a push, a pop gives the word pushed and the stack pointers of before it. -/
theorem pop_of_sameStack_pushed (hm : Memory.wf s.cfg.memInit s.mem) (hw : IsWord s.cfg.xlen (activeSp s))
    (hr : inRange s.cfg (s.word (activeSp s - 1)) = true) (h : SameStack u (pushed v s)) :
    pop u = .ok v { u with userSp := s.userSp, systemSp := s.systemSp } := by
  have hcfg : u.cfg = s.cfg := h.cfg.trans (by simp [pushed])
  have hsp : activeSp u = s.word (activeSp s - 1) := h.activeSp.trans (activeSp_pushed v s)
  have hcell : u.cell (s.word (activeSp s - 1)).toNat = v := by
    rw [State.cell, hcfg, h.mem]
    exact (storesOnly_writeCell hm _ v).1
  have hinc : u.word (s.word (activeSp s - 1) + 1) = activeSp s := by
    rw [State.word, hcfg]
    exact wrap_sub_one_add_one hw
  rw [pop_of_inRange (by rw [hcfg, hsp]; exact hr), hsp, hcell, hinc, setActiveSp_of_sameStack_pushed h]

/-- Settles O45: PUSH pushes `AC`, and POP pops it back. -/
theorem pushThenPopRestores : Obligations.PushThenPopRestores := by
  intro s t u hm hw hr he hmem hcfg hmode huser hsystem
  rw [exec_push_of_inRange hr] at he
  cases he
  rw [exec_pop, pop_of_sameStack_pushed hm hw hr ⟨hmem, hcfg, hmode, huser, hsystem⟩]
  rfl

/-- Settles O46: CALL pushes `PC`, and the jump after it leaves the stack as it is; RET pops `PC` back. -/
theorem callThenRetResumes : Obligations.CallThenRetResumes := by
  intro s t u a hm hw hr he hmem hcfg hmode huser hsystem
  rw [exec_call_of_inRange a hr] at he
  cases he
  rw [exec_ret, pop_of_sameStack_pushed hm hw hr ⟨hmem, hcfg, hmode, huser, hsystem⟩]
  rfl

end Sys2Proof.Machine
end

section
/-! PROOF. Output and the random source (spec/44_io.md, spec/45_misc.md). -/

namespace Sys2Proof.Machine

/-- PUT (R101). -/
theorem exec_put (port : Int) (s : State) :
    exec (.put port) s =
      (if port = s.cfg.portInt then output .int s.ac s
       else if port = s.cfg.portChar then output .char s.ac s
       else .ok () s).outcome := rfl

theorem exec_put_of_portInt {s : State} {port : Int} (h : port = s.cfg.portInt) :
    exec (.put port) s = .next (s.emit ⟨.int, s.ac⟩) := by
  rw [exec_put, if_pos h, output_eq, outcome_ok]

theorem exec_put_of_portChar {s : State} {port : Int} (h : port ≠ s.cfg.portInt) (h' : port = s.cfg.portChar) :
    exec (.put port) s = .next (s.emit ⟨.char, s.ac⟩) := by
  rw [exec_put, if_neg h, if_pos h', output_eq, outcome_ok]

theorem exec_put_of_no_port {s : State} {port : Int} (h : port ≠ s.cfg.portInt) (h' : port ≠ s.cfg.portChar) :
    exec (.put port) s = .next s := by
  rw [exec_put, if_neg h, if_neg h', outcome_ok]

/-- Settles O47, by the operand. -/
theorem putEmitsSelectedKind : Obligations.PutEmitsSelectedKind :=
  fun _ _ => ⟨exec_put_of_portInt, exec_put_of_portChar, exec_put_of_no_port⟩

/-- GET (R107). -/
theorem exec_get (s : State) : exec .get s = .next ((s.consumeDraw s.randomNext.tail).setAc (nextRandom s)) := rfl

/-- Where the environment has fixed a word, the draw stands for that word. -/
theorem nextRandom_of_head? {s : State} {w : Int} (h : s.randomNext.head? = some w) :
    nextRandom s = boundedDraw s.cfg.randMin s.cfg.randMax w := by
  unfold nextRandom
  split <;> rename_i heq <;> rw [heq] at h <;> cases h
  rfl

/-- Settles O48: the draw is within the bounds whatever the source gives, and a word within the bounds stands for itself. -/
theorem getDrawsWithinBounds : Obligations.GetDrawsWithinBounds := by
  intro s h
  obtain ⟨hlo, hhi⟩ := nextRandom_mem_bounds h
  refine ⟨nextRandom s, hlo, hhi, exec_get s, fun w hw h0 h1 => ?_⟩
  rw [nextRandom_of_head? hw, boundedDraw_of_mem_bounds h0 h1]

end Sys2Proof.Machine
end

section
/-! PROOF. Delivery and return (spec/60_exceptions.md sections 4 and 5, spec/45_misc.md R108, R109). -/

namespace Sys2Proof.Machine

variable {s t : State} {target : Int}

/-- INT (R108). -/
theorem exec_int (s : State) :
    exec .int s = (if s.interruptsEnabled then deliver s.cfg.syscallVector s else .ok () s).outcome := rfl

/-- IRET (R109). -/
theorem exec_iret (s : State) : exec .iret s = (if s.inSystemMode then returnFromInterrupt s else .ok () s).outcome := rfl

theorem exec_int_of_enabled (h : s.interruptsEnabled = true) : exec .int s = (deliver s.cfg.syscallVector s).outcome := by
  rw [exec_int, if_pos h]

theorem exec_int_of_masked (h : s.interruptsEnabled = false) : exec .int s = .next s := by
  rw [exec_int, if_neg (by simp [h]), outcome_ok]

theorem exec_iret_of_system (h : s.inSystemMode = true) : exec .iret s = (returnFromInterrupt s).outcome := by
  rw [exec_iret, if_pos h]

theorem exec_iret_of_user (h : s.inSystemMode = false) : exec .iret s = .next s := by
  rw [exec_iret, if_neg (by simp [h]), outcome_ok]

/-- Settles O52: INT looks at the mask alone, IRET at the mode alone. -/
theorem maskedIntAndUserIretDoNothing : Obligations.MaskedIntAndUserIretDoNothing :=
  ⟨fun _ => exec_int_of_masked, fun _ => exec_iret_of_user⟩

/-! The two cells of a delivery. -/

/-- The memory after a delivery from `s`: `PC` in the cell below `SystemSP`, `UserSP` in the cell below that (R126). -/
def deliveredMem (s : State) : Memory :=
  writeCell s.cfg.memInit (writeCell s.cfg.memInit s.mem (s.word (s.systemSp - 1)).toNat s.pc)
    (s.word (s.systemSp - 2)).toNat s.userSp

/-- Where both cells of a delivery exist they are two cells. -/
theorem delivery_cells_ne (hwidth : s.cfg.WidthOk) (h1 : inRange s.cfg (s.word (s.systemSp - 1)) = true)
    (h2 : inRange s.cfg (s.word (s.systemSp - 2)) = true) :
    (s.word (s.systemSp - 1)).toNat ≠ (s.word (s.systemSp - 2)).toNat := by
  have hne : s.word (s.systemSp - 1) ≠ s.word (s.systemSp - 2) := wrap_sub_one_ne hwidth s.systemSp
  have := inRange_iff.1 h1
  have := inRange_iff.1 h2
  omega

/-- What each cell holds after a delivery. -/
theorem readCell_deliveredMem (hwidth : s.cfg.WidthOk) (hm : Memory.wf s.cfg.memInit s.mem)
    (h1 : inRange s.cfg (s.word (s.systemSp - 1)) = true) (h2 : inRange s.cfg (s.word (s.systemSp - 2)) = true) :
    readCell s.cfg.memInit (deliveredMem s) (s.word (s.systemSp - 1)).toNat = s.pc ∧
    readCell s.cfg.memInit (deliveredMem s) (s.word (s.systemSp - 2)).toNat = s.userSp ∧
    ∀ b, b ≠ (s.word (s.systemSp - 1)).toNat → b ≠ (s.word (s.systemSp - 2)).toNat →
      readCell s.cfg.memInit (deliveredMem s) b = s.cell b := by
  obtain ⟨hpc, hother⟩ := storesOnly_writeCell hm (s.word (s.systemSp - 1)).toNat s.pc
  refine ⟨?pc, readCell_writeCell_same (writeCell_wf hm _ _) _ _, fun b hb1 hb2 => ?other⟩
  case pc => exact (readCell_writeCell_other _ _ (delivery_cells_ne hwidth h1 h2).symm).trans hpc
  case other => exact (readCell_writeCell_other _ _ hb2.symm).trans (hother b hb1)

/-- A delivery whose two cells exist, as one update of the state. -/
theorem deliver_of_inRange (target : Int) (h1 : inRange s.cfg (s.word (s.systemSp - 1)) = true)
    (h2 : inRange s.cfg (s.word (s.systemSp - 2)) = true) :
    deliver target s = .ok () { s with
      systemSp := s.word (s.systemSp - 2), pc := target, inSystemMode := true, interruptsEnabled := false,
      mem := deliveredMem s } :=
  deliver_eq_ok.2 ⟨h1, h2, rfl⟩

/-- Settles O50: the memory is `deliveredMem`, whose two cells are apart at every width of R5. -/
theorem deliverSavesPcAndUserSp : Obligations.DeliverSavesPcAndUserSp := by
  intro s target hwidth hm h1 h2
  exact ⟨deliveredMem s, deliver_of_inRange target h1 h2, readCell_deliveredMem hwidth hm h1 h2⟩

/-- Settles O51: a delivery from the state after the fetch, where `PC` is the address after the INT. -/
theorem intDeliversToSyscallVector : Obligations.IntDeliversToSyscallVector := by
  intro s hwidth hm hint h1 h2
  refine ⟨deliveredMem s, ?_, readCell_deliveredMem hwidth hm h1 h2⟩
  rw [exec_int_of_enabled hint, deliver_of_inRange _ h1 h2, outcome_ok]

/-! The return. -/

/-- A return whose two cells exist, as one update of the state. -/
theorem exec_iret_of_inRange (hm : s.inSystemMode = true) (h0 : inRange s.cfg s.systemSp = true)
    (h1 : inRange s.cfg (s.word (s.systemSp + 1)) = true) :
    exec .iret s = .next { s with
      userSp := s.cell s.systemSp.toNat, pc := s.cell (s.word (s.systemSp + 1)).toNat, systemSp := s.cfg.systemSpInit,
      inSystemMode := false, interruptsEnabled := true } := by
  rw [exec_iret_of_system hm, returnFromInterrupt_eq_ok (u := ()).2 ⟨h0, h1, rfl⟩]
  rfl

/-- Settles O53: both pops of the return go on. -/
theorem iretReturnsToUserMode : Obligations.IretReturnsToUserMode := fun _ hm h0 h1 => exec_iret_of_inRange hm h0 h1

/-- Settles O54: the return stops at its first or at its second pop. -/
theorem iretOutOfRangeStops : Obligations.IretOutOfRangeStops := by
  intro s hm
  refine ⟨fun h0 => ?first, fun h0 h1 => ?second⟩
  case first => rw [exec_iret_of_system hm, returnFromInterrupt_eq_stopped.2 (.inl ⟨h0, rfl⟩)]; rfl
  case second => rw [exec_iret_of_system hm, returnFromInterrupt_eq_stopped.2 (.inr ⟨h0, h1, rfl⟩)]; rfl

/-- Settles O55: the delivery leaves `SystemSP` at the cell of `UserSP`, one below the cell of `PC`, and the return pops the two
in that order. -/
theorem interruptRoundTrip : Obligations.InterruptRoundTrip := by
  intro s d h target hwidth hm hd hcfg hmode hsp hcell1 hcell2
  obtain ⟨h1, h2, _⟩ := deliver_eq_ok.1 hd
  rw [deliver_of_inRange target h1 h2] at hd
  cases hd
  obtain ⟨hpc, huser, _⟩ := readCell_deliveredMem hwidth hm h1 h2
  have hsp' : h.systemSp = s.word (s.systemSp - 2) := hsp
  have hnext : h.word (h.systemSp + 1) = s.word (s.systemSp - 1) := by
    rw [hsp', State.word, hcfg, wrap_wrap_add, show s.systemSp - 2 + 1 = s.systemSp - 1 by ring]
  rw [exec_iret_of_inRange hmode (by rw [hcfg, hsp']; exact h2) (by rw [hcfg, hnext]; exact h1), hnext, hsp', hcell1, hcell2,
    hcfg, ← hpc, ← huser]
  rfl

/-! A delivery that stops. -/

/-- Settles O56: a delivery stops at its first or at its second store; in a step it does so in the timer phase, in INT at the
end of the meaning. -/
theorem deliveryOutOfRangeStops : Obligations.DeliveryOutOfRangeStops := by
  intro s
  have hint : ∀ {u : State}, s.interruptsEnabled = true → deliver s.cfg.syscallVector s = .stopped u →
      exec .int s = .next u := fun hi hd => by rw [exec_int_of_enabled hi, hd, outcome_stopped]
  have htimer : ∀ {u : State}, s.running = true → timerFires s = true →
      deliver s.cfg.timerVector (s.setCountdown (s.word (s.countdown - 1))) = .stopped u → step s = .next u :=
    fun hr hf hd => step_of_timerPhase_stopped hr (timerPhase_eq_stopped.2 ⟨(timerFires_iff.1 hf).1, hf, hd⟩)
  refine ⟨fun h1 => ⟨fun hi => ?intFirst, fun hr hf => ?timerFirst⟩, fun hm h1 h2 =>
    ⟨_, storesOnly_writeCell hm _ _, fun hi => ?intSecond, fun hr hf => ?timerSecond⟩⟩
  case intFirst => exact hint hi (deliver_eq_stopped.2 (.inl ⟨h1, rfl⟩))
  case timerFirst => exact htimer hr hf (deliver_eq_stopped.2 (.inl ⟨h1, rfl⟩))
  case intSecond => exact hint hi (deliver_eq_stopped.2 (.inr ⟨h1, h2, rfl⟩))
  case timerSecond => exact htimer hr hf (deliver_eq_stopped.2 (.inr ⟨h1, h2, rfl⟩))

end Sys2Proof.Machine
end

section
/-! PROOF. Noninterference of the meanings (spec/20_memory.md section 4, spec/70_reset_and_hazards.md R156): two runs of one
piece of a step, from states that differ in the system zone of memory only, stay so related. -/

namespace Sys2Proof.Machine

variable {s : State} {m : Memory} {a : Int}

/-- The memory `m` is in the canonical form, as that of `s` is, and holds the same words in the user zone. -/
structure SameUserZone (s : State) (m : Memory) : Prop where
  wf : Memory.wf s.cfg.memInit s.mem
  wf' : Memory.wf s.cfg.memInit m
  cell : ∀ a : Nat, (a : Int) < s.cfg.userSize → readCell s.cfg.memInit m a = s.cell a

/-- Two results of a piece of a step: the same value, and states that differ in memory only, and there not in the user
zone. -/
inductive Related {α : Type} : Ran α → Ran α → Prop where
  | ok {s : State} {m : Memory} (a : α) : SameUserZone s m → Related (.ok a s) (.ok a (s.setMem m))
  | stopped {s : State} {m : Memory} : SameUserZone s m → Related (.stopped s) (.stopped (s.setMem m))

/-- One piece after another: the second may use what the first is known to have answered. -/
theorem Related.andThen {α β : Type} {r r' : Ran α} {f : α → State → Ran β} (h : Related r r')
    (hf : ∀ a s m, r = .ok a s → SameUserZone s m → Related (f a s) (f a (s.setMem m))) :
    Related (r.andThen f) (r'.andThen f) := by
  cases h with
  | ok a hs => exact hf a _ _ rfl hs
  | stopped hs => exact .stopped hs

theorem Related.intoAc {r r' : Ran Int} (h : Related r r') : Related (intoAc r) (intoAc r') :=
  h.andThen fun _ _ _ _ hs => .ok () ⟨hs.wf, hs.wf', hs.cell⟩

/-- A write of one word to the same cell of both memories. -/
theorem SameUserZone.write (h : SameUserZone s m) (b : Nat) (v : Int) :
    SameUserZone (s.setMem (writeCell s.cfg.memInit s.mem b v)) (writeCell s.cfg.memInit m b v) where
  wf := writeCell_wf h.wf b v
  wf' := writeCell_wf h.wf' b v
  cell := by
    intro c hc
    by_cases hbc : b = c
    · subst hbc
      exact (readCell_writeCell_same h.wf' b v).trans (readCell_writeCell_same h.wf b v).symm
    · exact (readCell_writeCell_other m v hbc).trans ((h.cell c hc).trans (readCell_writeCell_other s.mem v hbc).symm)

theorem related_memWrite (h : SameUserZone s m) (a v : Int) : Related (memWrite a v s) (memWrite a v (s.setMem m)) := by
  cases hr : inRange s.cfg a with
  | true =>
    rw [memWrite_eq_ok (u := ()) (s := s) |>.2 ⟨hr, rfl⟩, memWrite_eq_ok (u := ()) (s := s.setMem m) |>.2 ⟨hr, rfl⟩]
    exact .ok () (h.write a.toNat v)
  | false =>
    rw [memWrite_eq_stopped (s := s) |>.2 ⟨hr, rfl⟩, memWrite_eq_stopped (s := s.setMem m) |>.2 ⟨hr, rfl⟩]
    exact .stopped ⟨h.wf, h.wf', h.cell⟩

theorem related_protCheck (h : SameUserZone s m) (a : Int) : Related (protCheck a s) (protCheck a (s.setMem m)) := by
  by_cases hp : s.inSystemMode = false ∧ inSystemZone s.cfg a = true
  · rw [protCheck_eq_stopped (s := s) |>.2 ⟨hp, rfl⟩, protCheck_eq_stopped (s := s.setMem m) |>.2 ⟨hp, rfl⟩]
    exact .stopped ⟨h.wf, h.wf', h.cell⟩
  · have ha : Allowed s a := (not_and_or.1 hp).imp Bool.eq_true_of_not_eq_false Bool.eq_false_of_not_eq_true
    rw [protCheck_eq_ok (u := ()) (s := s) |>.2 ⟨ha, rfl⟩, protCheck_eq_ok (u := ()) (s := s.setMem m) |>.2 ⟨ha, rfl⟩]
    exact .ok () h

/-- A read outside the system zone: where the cell exists it is in the user zone. -/
theorem related_memRead (h : SameUserZone s m) (hz : inSystemZone s.cfg a = false) :
    Related (memRead a s) (memRead a (s.setMem m)) := by
  cases hr : inRange s.cfg a with
  | true =>
    have hlt : (a.toNat : Int) < s.cfg.userSize := by
      obtain ⟨h0, h1⟩ := inRange_iff.1 hr
      by_contra hge
      simp [inSystemZone_iff.2 ⟨by omega, h1⟩] at hz
    rw [memRead_eq_ok (s := s) |>.2 ⟨hr, rfl, rfl⟩,
      memRead_eq_ok (s := s.setMem m) |>.2 ⟨hr, (h.cell a.toNat hlt).symm, rfl⟩]
    exact .ok _ h
  | false =>
    rw [memRead_eq_stopped (s := s) |>.2 ⟨hr, rfl⟩, memRead_eq_stopped (s := s.setMem m) |>.2 ⟨hr, rfl⟩]
    exact .stopped ⟨h.wf, h.wf', h.cell⟩

/-- In user mode a checked read does not see the system zone. -/
theorem related_readChecked (h : SameUserZone s m) (hu : s.inSystemMode = false) (a : Int) :
    Related (readChecked a s) (readChecked a (s.setMem m)) := by
  refine (related_protCheck h a).andThen fun _ t m' ht hs => ?_
  obtain ⟨hallowed, rfl⟩ := protCheck_eq_ok.1 ht
  exact related_memRead hs (hallowed.resolve_left (by simp [hu]))

theorem related_writeChecked (h : SameUserZone s m) (a v : Int) :
    Related (writeChecked a v s) (writeChecked a v (s.setMem m)) :=
  (related_protCheck h a).andThen fun _ _ _ _ hs => related_memWrite hs a v

theorem related_push (h : SameUserZone s m) (hu : s.inSystemMode = false) (v : Int) :
    Related (push v s) (push v (s.setMem m)) := by
  rw [push, push, activeSp_user hu, activeSp_user (s := s.setMem m) hu, setActiveSp_user hu,
    setActiveSp_user (s := s.setMem m) hu]
  exact related_memWrite (s := s.setUserSp (wrap s.cfg.xlen (s.userSp - 1))) ⟨h.wf, h.wf', h.cell⟩ _ _

theorem related_pushSystem (h : SameUserZone s m) (v : Int) : Related (pushSystem v s) (pushSystem v (s.setMem m)) :=
  related_memWrite (s := s.setSystemSp (wrap s.cfg.xlen (s.systemSp - 1))) ⟨h.wf, h.wf', h.cell⟩ _ _

theorem related_deliver (h : SameUserZone s m) (target : Int) : Related (deliver target s) (deliver target (s.setMem m)) := by
  refine (related_pushSystem h s.pc).andThen fun _ t m' _ ht => ?_
  refine (related_pushSystem ht t.userSp).andThen fun _ u m'' _ hu => ?_
  exact .ok (s := (u.setPc target).setMode true false) () ⟨hu.wf, hu.wf', hu.cell⟩

/-- Related pieces end in states that differ in memory only, and there not in the user zone. -/
theorem Related.outcome {r r' : Ran Unit} (h : Related r r') :
    ∃ t m, r.outcome = .next t ∧ r'.outcome = .next (t.setMem m) ∧ SameUserZone t m := by
  cases h with
  | ok _ hs => exact ⟨_, _, rfl, rfl, hs⟩
  | stopped hs => exact ⟨_, _, rfl, rfl, hs⟩

/-- In user mode every meaning but those of LOADSPX, POP and RET ends in states so related: those that use memory by the
relation of their pieces, and all others without looking at it. -/
theorem exec_sameUserZone {i : Instr} (h : SameUserZone s m) (hu : s.inSystemMode = false)
    (hi : i.op ∉ [Op.loadspx, .pop, .ret]) :
    ∃ t m', exec i s = .next t ∧ exec i (s.setMem m) = .next (t.setMem m') ∧ SameUserZone t m' := by
  cases i with
  | loadspx | pop | ret => simp [Instr.op] at hi
  | loada a => exact (related_readChecked h hu a).intoAc.outcome
  | loadidxx b => exact (related_readChecked h hu (indexedByX b s)).intoAc.outcome
  | loadidxy b => exact (related_readChecked h hu (indexedByY b s)).intoAc.outcome
  | loadind a =>
    refine ((related_readChecked h hu a).andThen fun p t m' ht hs => ?_).intoAc.outcome
    obtain ⟨_, _, _, rfl⟩ := readChecked_eq_ok.1 ht
    exact related_readChecked hs hu p
  | store a => exact (related_writeChecked h a s.ac).outcome
  | push => exact (related_push h hu s.ac).outcome
  | call a =>
    refine ((related_push h hu s.pc).andThen fun _ t m' _ hs => ?_).outcome
    exact .ok (s := t.setPc a) () ⟨hs.wf, hs.wf', hs.cell⟩
  | int =>
    cases hint : s.interruptsEnabled with
    | true =>
      rw [exec_int_of_enabled hint, exec_int_of_enabled (s := s.setMem m) hint]
      exact (related_deliver h s.cfg.syscallVector).outcome
    | false => exact ⟨s, m, exec_int_of_masked hint, exec_int_of_masked (s := s.setMem m) hint, h⟩
  | iret => exact ⟨s, m, exec_iret_of_user hu, exec_iret_of_user (s := s.setMem m) hu, h⟩
  | put port =>
    by_cases hint : port = s.cfg.portInt
    · exact ⟨s.emit ⟨.int, s.ac⟩, m, exec_put_of_portInt hint, exec_put_of_portInt (s := s.setMem m) hint, h.wf, h.wf', h.cell⟩
    by_cases hchar : port = s.cfg.portChar
    · exact ⟨s.emit ⟨.char, s.ac⟩, m, exec_put_of_portChar hint hchar, exec_put_of_portChar (s := s.setMem m) hint hchar,
        h.wf, h.wf', h.cell⟩
    · exact ⟨s, m, exec_put_of_no_port hint hchar, exec_put_of_no_port (s := s.setMem m) hint hchar, h⟩
  | jumpifeq a =>
    by_cases hac : s.ac = 0
    · exact ⟨s.setPc a, m, exec_jumpifeq_of_ac_eq_zero a hac, exec_jumpifeq_of_ac_eq_zero (s := s.setMem m) a hac,
        h.wf, h.wf', h.cell⟩
    · exact ⟨s, m, exec_jumpifeq_of_ac_ne_zero a hac, exec_jumpifeq_of_ac_ne_zero (s := s.setMem m) a hac, h⟩
  | jumpifne a =>
    by_cases hac : s.ac = 0
    · exact ⟨s, m, exec_jumpifne_of_ac_eq_zero a hac, exec_jumpifne_of_ac_eq_zero (s := s.setMem m) a hac, h⟩
    · exact ⟨s.setPc a, m, exec_jumpifne_of_ac_ne_zero a hac, exec_jumpifne_of_ac_ne_zero (s := s.setMem m) a hac,
        h.wf, h.wf', h.cell⟩
  | copytosp =>
    refine ⟨s.setUserSp s.ac, m, congrArg _ (setActiveSp_user hu s.ac), ?_, h.wf, h.wf', h.cell⟩
    exact congrArg _ (setActiveSp_user (s := s.setMem m) hu s.ac)
  | loadv | addx | addy | subx | suby | copytox | copyfromx | copytoy | copyfromy | copyfromsp | jump | incx | decx | get
  | halt => exact ⟨_, m, rfl, rfl, h.wf, h.wf', h.cell⟩

/-- Settles O31, by the relation of the two runs. -/
theorem userModeMeaningIgnoresSystemZone : Obligations.UserModeMeaningIgnoresSystemZone := by
  intro i s t m hu hi hs hm hcell he
  obtain ⟨t', m', he', hem, hzone⟩ := exec_sameUserZone ⟨hs, hm, hcell⟩ hu hi
  rw [he] at he'
  cases he'
  have hcfg : t.cfg = s.cfg := (exec_effect he).cfg_ir_countdown.1
  exact ⟨m', hem, hcfg ▸ hzone.cell⟩

end Sys2Proof.Machine
end
